-- ==== Sys2Proof/Word.lean ====
section
/-! DEFINITION. The widths of 00_scope.md R10: every value of the block is an unsigned number of a stated width. -/

namespace Sys2Proof

/-- A 64-bit value: `state`, `increment`, the operands, a response's data (R20, R21, R65). -/
abbrev U64 := BitVec 64

/-- A 53-bit value: the numerator NEXT_DOUBLE2 assembles (R162). -/
abbrev U53 := BitVec 53

/-- A 32-bit value: a raw output, a bound, a threshold (R6 `W_OUT`, R140). -/
abbrev U32 := BitVec 32

/-- A 5-bit value: a rotation amount (R6 `ROT_W`). -/
abbrev U5 := BitVec 5

/-- A 4-bit value: `cmd_op` (R7 `OP_W`). -/
abbrev U4 := BitVec 4

/-- A 2-bit value: `rsp_err` (R7 `ERR_W`). -/
abbrev U2 := BitVec 2

/-- A command word, `{cmd_op, cmd_a, cmd_b}` (R66). -/
abbrev CmdWord := BitVec 132

end Sys2Proof
end

