-- ==== Sys2Proof/Config.lean ====
section
/-! DEFINITION. What an instance fixes (00_scope.md R7) and the free values, none of which has a body here. -/

namespace Sys2Proof

/-- The open parameters D2_NDRAWS and D2_ASSEMBLE of NEXT_DOUBLE2, chosen together (R7, R165). -/
inductive D2Choice where
  /-- The default of R165: two draws, `(dq[0] >> 5) * 2^26 + (dq[1] >> 6)`. -/
  | customary
  /-- Any other choice: `beyondTwo + 2` draws (R162 (c) asks for at least two) and the assembly `rule` of
  `Config.d2Assembly`, about which nothing is known. -/
  | other (beyondTwo rule : Nat)
  deriving DecidableEq, Repr

/-- The parameters an instance is built with; no command writes them (R34). -/
structure Params where
  /-- HAS_FPCONV (R7, R170). -/
  hasFpconv : Bool
  /-- D2_NDRAWS and D2_ASSEMBLE (R7, R162). -/
  d2 : D2Choice
  deriving DecidableEq, Repr

/-- The defaults of R7: FPCONV present, NEXT_DOUBLE2 as R165. -/
def Params.standard : Params := { hasFpconv := true, d2 := .customary }

/-- The number of draws of a choice (D2_NDRAWS); never below two. -/
def D2Choice.ndraws : D2Choice → Nat
  | .customary => 2
  | .other beyondTwo _ => beyondTwo + 2

/-- D2_ASSEMBLE where it is not R165's default (R162, U3): rule number and draws to a numerator below 2^53.
No body: nothing of it can be proved (log entry 4). -/
opaque Config.d2Assembly : Nat → List U32 → U53

/-- The registers R35 gives no reset value. -/
inductive Unspecified where
  | state | increment | opQ | aQ | bQ | thrQ | rQ | dcnt | rspDataQ | rspErrQ
  /-- The element of `dq` at an index. -/
  | dq (index : Nat)
  deriving DecidableEq, Repr

/-- What a register R35 gives no value holds after the n-th reset edge of a run (R220: "take the unspecified
values"). No body: nothing of it can be proved (log entry 3). -/
opaque Config.unspecified : Unspecified → Nat → U64

end Sys2Proof
end

