-- ==== Sys2Proof/Machine/State.lean ====
section
/-! DEFINITION. All the state the spec gives the block (10_state.md), the input ports as the host drives them, and the
state after reset. Plain data. -/

namespace Sys2Proof.Machine

/-- The sequencing register's twelve values (R28). -/
inductive Phase where
  | idle
  | seedZero | seedInc | seedAdv1 | seedAdd | seedAdv2
  | exec
  | bndThr | bndDraw | bndTest
  | d2Draw
  | resp
  deriving DecidableEq, Repr

/-- One sample of the input ports (R65), taken by one step. -/
structure Inputs where
  rst : Bool
  cmdValid : Bool
  cmdOp : U4
  cmdA : U64
  cmdB : U64
  rspReady : Bool
  entTime : U64
  entId : U64
  deriving DecidableEq, Repr

/-- The host drives nothing: no reset, no command, no response taken. DESIGN CHOICE (log entry 20): the two entropy ports
then hold 0, where the spec leaves them any value (R7, R62), so an AUTOSEED with no sample left seeds from (0, 0). -/
def Inputs.quiet : Inputs :=
  { rst := false, cmdValid := false, cmdOp := 0#4, cmdA := 0#64, cmdB := 0#64, rspReady := false,
    entTime := 0#64, entId := 0#64 }

/-- Which of the spec's two equal readings a step takes for an accepted command (log entry 6). -/
inductive Pace where
  /-- The whole command in one step: the big-step rules (R14, R100, R108, R123, R141, R161, R162, R180 to R182). -/
  | command
  /-- One micro-step a step: the table of R86. -/
  | micro
  deriving DecidableEq, Repr

/-- Why the machine stops. No run from reset meets either. -/
inductive Fault where
  /-- Raised by NEXT_BOUNDED run whole, when 2^64 draws in a row are rejected: the block then never answers, because
  2^64 draws visit every state it can reach. Safe (log entry 8). -/
  | samplerEndless
  /-- Raised by a micro-step where no rule pairs the phase with the latched opcode (EXEC with another command's
  opcode). Safe (log entry 9). -/
  | noMicroStep
  deriving DecidableEq, Repr

/-- Instructions without a meaning. -/
inductive Refusal where
  /-- Raised by exec's arm for an instruction that has no meaning yet; there is none. Safe. -/
  | notModelled (mnemonic : String)
  deriving DecidableEq, Repr

/-- The block with its ports. -/
structure State where
  /-- The linear-congruential accumulator (R20). -/
  state : U64
  /-- The stream selector (R21). -/
  increment : U64
  /-- A pair has been written since reset (R25). -/
  seeded : Bool
  /-- `fault_sticky`: an error response since reset (R26). -/
  faultSticky : Bool
  /-- The sequencing register (R28). -/
  phase : Phase
  /-- `op_q`, the accepted command's opcode (R29). -/
  opQ : U4
  /-- `a_q`, its first operand (R29). -/
  aQ : U64
  /-- `b_q`, its second operand (R29). -/
  bQ : U64
  /-- `thr_q`, the sampler's threshold (R30). -/
  thrQ : U32
  /-- `r_q`, the sampler's most recent draw (R30). -/
  rQ : U32
  /-- `dq`, the draws of NEXT_DOUBLE2 (R30). -/
  dq : List U32
  /-- `dcnt`, the index of the next of them (R30). -/
  dcnt : Nat
  /-- `rsp_data_q`, the latched response's data (R30). -/
  rspDataQ : U64
  /-- `rsp_err_q`, the latched response's error code (R30). -/
  rspErrQ : U2
  /-- The samples the host drives on the input ports, the present one first; past the end it drives nothing. Not state
  of the block (R34; log entry 5). -/
  inputs : List Inputs
  /-- The instance's parameters; never written (R7, R34; log entry 4). -/
  params : Params
  /-- The model's own field (log entry 6). -/
  pace : Pace
  /-- The model's own field: reset edges so far, the argument of the free values (log entry 3). -/
  resets : Nat
  deriving DecidableEq, Repr

/-- The block right after reset (R35), standard parameters, no port driven. R35 gives `state`, `increment` and the
latches no value; the zeros here are the model's (log entries 1, 2). -/
def State.reset : State :=
  { state := 0#64, increment := 0#64, seeded := false, faultSticky := false, phase := .idle,
    opQ := 0#4, aQ := 0#64, bQ := 0#64, thrQ := 0#32, rQ := 0#32, dq := [0#32, 0#32], dcnt := 0,
    rspDataQ := 0#64, rspErrQ := 0#2, inputs := [], params := Params.standard, pace := .command, resets := 0 }

end Sys2Proof.Machine
end

