-- ==== Sys2Proof/Machine/Flags.lean ====
section
/-! DEFINITION. The block has no flags (10_state.md R27). What it shows instead: the handshake outputs, the response
and the three status outputs, each a function of the registers (R33, R65, R85). -/

namespace Sys2Proof.Machine

/-- A response as the host sees it (R69). -/
structure Response where
  err : U2
  data : U64
  deriving DecidableEq, Repr

/-- `cmd_ready` (R85). -/
def State.cmdReady (s : State) : Bool := decide (s.phase = .idle)

/-- `rsp_valid` (R85). -/
def State.rspValid (s : State) : Bool := decide (s.phase = .resp)

/-- `rsp_err` and `rsp_data` while `rsp_valid = 1` (R65); at other times they are unspecified and not shown (log
entry 16). -/
def State.response (s : State) : Option Response :=
  if s.rspValid then some { err := s.rspErrQ, data := s.rspDataQ } else none

/-- `st_seeded` (R33). -/
def State.stSeeded (s : State) : Bool := s.seeded

/-- `st_fault` (R33). -/
def State.stFault (s : State) : Bool := s.faultSticky

/-- `st_busy` (R33). -/
def State.stBusy (s : State) : Bool := decide (s.phase ≠ .idle)

end Sys2Proof.Machine
end

