-- ==== Sys2Proof/Syntax.lean ====
section
/-! DEFINITION. The nine commands of spec/opcode_table.json, one constructor a row (30_encoding.md R67, R70). -/

namespace Sys2Proof

/-- A command of the block. A format's ignored operand bits are carried too, because the accept edge latches
them like any others (R67); no meaning reads them. -/
inductive Instr where
  /-- SEED, opcode 0x0, format AB (R100). -/
  | seed (initState initSequence : U64)
  /-- AUTOSEED, opcode 0x1, format Z; its two values come from the entropy ports (R108). -/
  | autoseed (ignoredA ignoredB : U64)
  /-- NEXT, opcode 0x2, format Z (R123). -/
  | next (ignoredA ignoredB : U64)
  /-- NEXT_BOUNDED, opcode 0x3, format A32: `cmd_a[63:32]` ignored, `cmd_a[31:0]` the bound (R141). -/
  | nextBounded (ignoredHigh bound : U32) (ignoredB : U64)
  /-- NEXT_DOUBLE, opcode 0x4, format Z, option FPCONV (R161). -/
  | nextDouble (ignoredA ignoredB : U64)
  /-- NEXT_DOUBLE2, opcode 0x5, format Z, option FPCONV (R162). -/
  | nextDouble2 (ignoredA ignoredB : U64)
  /-- RD_STATE, opcode 0x6, format Z (R180). -/
  | rdState (ignoredA ignoredB : U64)
  /-- RD_INC, opcode 0x7, format Z (R181). -/
  | rdInc (ignoredA ignoredB : U64)
  /-- RESTORE, opcode 0x8, format AB (R182). -/
  | restore (stateImage incrementImage : U64)
  deriving DecidableEq, Repr

end Sys2Proof
end

