-- ==== Sys2Proof/Decode.lean ====
section
/-! DEFINITION. The decoder and the encoder of the 132-bit command word (30_encoding.md R66, R67, R68, R70, R71). -/

namespace Sys2Proof

/-- What the decoder reads: a command, or a reserved opcode under its own name (R71). -/
inductive Decoded where
  | instr (i : Instr)
  | reserved (op : U4)
  deriving DecidableEq, Repr

/-- `cmd[131:128] = cmd_op` (R66). -/
def CmdWord.op (w : CmdWord) : U4 := w.extractLsb' 128 4

/-- `cmd[127:64] = cmd_a` (R66). -/
def CmdWord.a (w : CmdWord) : U64 := w.extractLsb' 64 64

/-- `cmd[63:0] = cmd_b` (R66). -/
def CmdWord.b (w : CmdWord) : U64 := w.extractLsb' 0 64

/-- `{cmd_op, cmd_a, cmd_b}` (R66). -/
def cmdWord (op : U4) (a b : U64) : CmdWord := op ++ a ++ b

/-- The opcode map (R70) over the three ports; the opcode alone selects the command (R66). Absent options are not
looked at here: R170's check is made at dispatch. -/
def decodePorts (op : U4) (a b : U64) : Decoded :=
  match op with
  | 0x0#4 => .instr (.seed a b)
  | 0x1#4 => .instr (.autoseed a b)
  | 0x2#4 => .instr (.next a b)
  | 0x3#4 => .instr (.nextBounded (a.extractLsb' 32 32) (a.extractLsb' 0 32) b)
  | 0x4#4 => .instr (.nextDouble a b)
  | 0x5#4 => .instr (.nextDouble2 a b)
  | 0x6#4 => .instr (.rdState a b)
  | 0x7#4 => .instr (.rdInc a b)
  | 0x8#4 => .instr (.restore a b)
  | op => .reserved op

/-- The decoder, total on every 132-bit word (R66, R71). -/
def decode (w : CmdWord) : Decoded := decodePorts (CmdWord.op w) (CmdWord.a w) (CmdWord.b w)

/-- The command's opcode (R70). -/
def Instr.opcode : Instr → U4
  | .seed _ _ => 0x0#4
  | .autoseed _ _ => 0x1#4
  | .next _ _ => 0x2#4
  | .nextBounded _ _ _ => 0x3#4
  | .nextDouble _ _ => 0x4#4
  | .nextDouble2 _ _ => 0x5#4
  | .rdState _ _ => 0x6#4
  | .rdInc _ _ => 0x7#4
  | .restore _ _ => 0x8#4

/-- What the command shows on `cmd_a` (R67). -/
def Instr.operandA : Instr → U64
  | .seed a _ => a
  | .autoseed a _ => a
  | .next a _ => a
  | .nextBounded high bound _ => high ++ bound
  | .nextDouble a _ => a
  | .nextDouble2 a _ => a
  | .rdState a _ => a
  | .rdInc a _ => a
  | .restore a _ => a

/-- What the command shows on `cmd_b` (R67). -/
def Instr.operandB : Instr → U64
  | .seed _ b => b
  | .autoseed _ b => b
  | .next _ b => b
  | .nextBounded _ _ b => b
  | .nextDouble _ b => b
  | .nextDouble2 _ b => b
  | .rdState _ b => b
  | .rdInc _ b => b
  | .restore _ b => b

/-- The encoder: a command's word (R66, R67, R70). -/
def encode (i : Instr) : CmdWord := cmdWord i.opcode i.operandA i.operandB

/-- The command whose word's bits are `w`, bit 0 the least significant of `cmd_b` as in spec/opcode_table.json; none
for a reserved opcode and for a number that does not fit the one word of 132 bits (log entry 19). -/
def decodeTableWord (_nbits w : Nat) : Option Instr :=
  if w < 2 ^ 132 then
    match decode (BitVec.ofNat 132 w) with
    | .instr i => some i
    | .reserved _ => none
  else none

end Sys2Proof
end

