-- ==== Sys2Proof/Machine/Arith.lean ====
section
/-! DEFINITION. The block's arithmetic: the primitives of 00_scope.md R12 the rules use, the constants of R6, the state
advance (R120), the output permutation (R121, R122), the threshold (R140) and the binary64 pattern (R160). -/

namespace Sys2Proof.Machine

/-- `add64` (R12). -/
abbrev add64 (a b : U64) : U64 := a + b

/-- `mul64` (R12). -/
abbrev mul64 (a b : U64) : U64 := a * b

/-- `shl64` (R12). -/
abbrev shl64 (a : U64) (n : Nat) : U64 := a <<< n

/-- `shr64` (R12), logical. -/
abbrev shr64 (a : U64) (n : Nat) : U64 := a >>> n

/-- `xor64` (R12). -/
abbrev xor64 (a b : U64) : U64 := a ^^^ b

/-- `or64` (R12). -/
abbrev or64 (a b : U64) : U64 := a ||| b

/-- `trunc32` (R12). -/
abbrev trunc32 (a : U64) : U32 := a.setWidth 32

/-- `zext64` of a 32-bit value (R12). -/
abbrev zext64 (v : U32) : U64 := v.setWidth 64

/-- `shl32` (R12). -/
abbrev shl32 (a : U32) (n : Nat) : U32 := a <<< n

/-- `shr32` (R12), logical. -/
abbrev shr32 (a : U32) (n : Nat) : U32 := a >>> n

/-- `or32` (R12). -/
abbrev or32 (a b : U32) : U32 := a ||| b

/-- `and32` (R12). -/
abbrev and32 (a b : U32) : U32 := a &&& b

/-- `neg32` (R12). -/
abbrev neg32 (a : U32) : U32 := -a

/-- `mod32` (R12), unsigned; the block never evaluates it with divisor 0 (R142). -/
abbrev mod32 (a b : U32) : U32 := a % b

/-- `ge32` (R12), unsigned. -/
abbrev ge32 (a b : U32) : Prop := b ≤ a

/-- `MULT` (R6). -/
def mult : U64 := 6364136223846793005#64

/-- The state-advance transition (R120). The constant stands as the left factor, which for multiplication mod 2^64 is the
same number: evaluation then never counts the constant down. -/
def lcgStep (s inc : U64) : U64 := add64 (mul64 mult s) inc

/-- Right rotation of a 32-bit word (R122). -/
def ror32 (v : U32) (n : U5) : U32 :=
  or32 (shr32 v n.toNat) (shl32 v (and32 (neg32 (n.setWidth 32)) 31#32).toNat)

/-- `xorshifted`: the shifts 18 and 27 of R6, then the 32-bit truncation (R121). -/
def xorshifted (s : U64) : U32 := trunc32 (shr64 (xor64 (shr64 s 18) s) 27)

/-- `rotation`: the top five bits, the shift 59 of R6 (R121). -/
def rotationAmount (s : U64) : U5 := (shr64 s 59).setWidth 5

/-- The output permutation (R121), a function of the state before the advance. -/
def xshRr (s : U64) : U32 := ror32 (xorshifted s) (rotationAmount s)

/-- SEED's step 2: the odd stream selector of a sequence number (R100). -/
def oddIncrement (sequence : U64) : U64 := or64 (shl64 sequence 1) 1#64

/-- AUTOSEED's sequence number of an identity, `2 * h + 1` at 64 bits (R108). -/
def autoSequence (entId : U64) : U64 := add64 (shl64 entId 1) 1#64

/-- The sampler's threshold (R140); used for a bound other than 0 only. -/
def threshold (bound : U32) : U32 := mod32 (neg32 bound) bound

/-- The binary64 pattern of `n * 2^-k`, for `n < 2^53` and `k ≤ 1022` (R160; the layout is log entry 17). -/
def f64Scaled (n k : Nat) : U64 :=
  if n = 0 then 0#64
  else
    let m := Nat.log2 n
    0#1 ++ BitVec.ofNat 11 (1023 + m - k) ++ BitVec.ofNat 52 ((n - 2 ^ m) * 2 ^ (52 - m))

/-- NEXT_DOUBLE's pattern: the draw scaled by 2^-32 (R6 `DBL_SCALE`, R161). -/
def doubleOf (r : U32) : U64 := f64Scaled r.toNat 32

/-- `D2_ASSEMBLE` (R7): R165's formula for the default, a free function for every other choice (R162). -/
def d2Assemble : D2Choice → List U32 → U53
  | .customary, dq =>
      BitVec.ofNat 53 ((shr32 (dq.getD 0 0#32) 5).toNat * 2 ^ 26 + (shr32 (dq.getD 1 0#32) 6).toNat)
  | .other _ rule, dq => Config.d2Assembly rule dq

/-- NEXT_DOUBLE2's pattern: the assembled numerator scaled by 2^-53 (R6 `DBL2_SCALE`, R162). -/
def double2Of (choice : D2Choice) (dq : List U32) : U64 := f64Scaled (d2Assemble choice dq).toNat 53

end Sys2Proof.Machine
end

