-- ==== Sys2Proof/Machine/Operands.lean ====
section
/-! DEFINITION. The input ports of the present step and the operands read from the latches (30_encoding.md R65, R67,
R68, R80). -/

namespace Sys2Proof.Machine

/-- The values on the input ports at this step (R65); a host with nothing left to drive drives nothing,
with 0 on the entropy ports (log entry 20). -/
def State.pins (s : State) : Inputs := s.inputs.headD Inputs.quiet

/-- The command word on the command port (R66). -/
def Inputs.word (p : Inputs) : CmdWord := cmdWord p.cmdOp p.cmdA p.cmdB

/-- The port values with a command word presented and no reset; `rsp_ready` and the entropy ports as they were. -/
def Inputs.present (p : Inputs) (w : CmdWord) : Inputs :=
  { p with rst := false, cmdValid := true, cmdOp := CmdWord.op w, cmdA := CmdWord.a w, cmdB := CmdWord.b w }

/-- What the accept edge loads into `a_q`: `ent_time` for AUTOSEED, else `cmd_a` (R80). -/
def operandLatchA (p : Inputs) (op : U4) (a : U64) : U64 := if op = 0x1#4 then p.entTime else a

/-- What the accept edge loads into `b_q`: `2 * ent_id + 1` for AUTOSEED, else `cmd_b` (R80, R108). -/
def operandLatchB (p : Inputs) (op : U4) (b : U64) : U64 := if op = 0x1#4 then autoSequence p.entId else b

/-- NEXT_BOUNDED's bound, `a_q[31:0]` (R68). -/
def State.bound (s : State) : U32 := trunc32 s.aQ

end Sys2Proof.Machine
end

