-- ==== Sys2Proof/Machine/Ops.lean ====
section
/-! DEFINITION. The operations every command shares: the draw (41_raw_output.md R124), the two ways a command ends
(30_encoding.md R83, 60_exceptions.md R191), the accept edge and its checks (R80, R81, R82), the response taken (R84)
and reset (70_reset_and_hazards.md R220). -/

namespace Sys2Proof.Machine

/-- What a step answers on this machine. -/
abbrev Result := Host.Outcome State Fault Refusal

/-- The errors (R190). -/
inductive Error where
  | boundZero | unseeded | illegalCommand
  deriving DecidableEq, Repr

/-- The value on `rsp_err` (R190); 0 is success. -/
def errorCode : Error → U2
  | .boundZero => 1#2
  | .unseeded => 2#2
  | .illegalCommand => 3#2

/-- What a draw returns: the permutation of the state before the advance (R124). -/
def State.output (s : State) : U32 := xshRr s.state

/-- What a draw writes: one advance of `state` (R124). -/
def State.advance (s : State) : State := { s with state := lcgStep s.state s.increment }

/-- `respond(d)`, the success response (R83). -/
def State.respond (d : U64) (s : State) : State := { s with rspDataQ := d, rspErrQ := 0#2, phase := .resp }

/-- `raise E`, the error response: the block's exception entry (R191). -/
def State.raise (e : Error) (s : State) : State :=
  { s with rspErrQ := errorCode e, rspDataQ := 0#64, faultSticky := true, phase := .resp }

/-- The response is taken: the block's return, from a success and from an error alike (R84, R197). -/
def State.take (s : State) : State := { s with phase := .idle }

/-- The accept edge's latching of opcode and operands (R80). -/
def State.latch (op : U4) (a b : U64) (s : State) : State :=
  { s with opQ := op, aQ := operandLatchA s.pins op a, bQ := operandLatchB s.pins op b }

/-- Opcodes 0x9 to 0xF, and 0x4 and 0x5 without FPCONV (R71, R170). -/
def reserved (p : Params) (op : U4) : Bool :=
  decide (0x9#4 ≤ op) || (!p.hasFpconv && (op == 0x4#4 || op == 0x5#4))

/-- The commands that read `state` or `increment`: NEXT, NEXT_BOUNDED, NEXT_DOUBLE, NEXT_DOUBLE2, RD_STATE, RD_INC
(R81, R194). -/
def needsSeed (op : U4) : Bool := decide (0x2#4 ≤ op) && decide (op ≤ 0x7#4)

/-- The dispatch checks in their order: IllegalCommand, then Unseeded (R81, R192). -/
def dispatchError (op : U4) (s : State) : Option Error :=
  if reserved s.params op then some .illegalCommand
  else if needsSeed op && !s.seeded then some .unseeded
  else none

/-- A command run whole (R14): accepted only in IDLE (R80; elsewhere it is not looked at, log entry 7), latched,
checked (R81), and then `run` on the latched state. -/
def command (op : U4) (a b : U64) (run : State → Result) (s : State) : Result :=
  if s.phase = .idle then
    match dispatchError op s with
    | some e => .next ((s.latch op a b).raise e)
    | none => run (s.latch op a b)
  else .next s

/-- `dq` and `dcnt` after a reset edge: free, of the right length and within range (R30, R35). -/
def freeDraws (ndraws n : Nat) : List U32 :=
  (List.range ndraws).map fun i => trunc32 (Config.unspecified (.dq i) n)

/-- A rising edge with `rst = 1` (R220): what R35 fixes is fixed, every register it leaves unspecified holds a free
value (log entry 3). -/
def State.resetEdge (s : State) : State :=
  { s with
    phase := .idle, seeded := false, faultSticky := false,
    state := Config.unspecified .state s.resets,
    increment := Config.unspecified .increment s.resets,
    opQ := (Config.unspecified .opQ s.resets).setWidth 4,
    aQ := Config.unspecified .aQ s.resets,
    bQ := Config.unspecified .bQ s.resets,
    thrQ := trunc32 (Config.unspecified .thrQ s.resets),
    rQ := trunc32 (Config.unspecified .rQ s.resets),
    dq := freeDraws s.params.d2.ndraws s.resets,
    dcnt := (Config.unspecified .dcnt s.resets).toNat % (s.params.d2.ndraws + 1),
    rspDataQ := Config.unspecified .rspDataQ s.resets,
    rspErrQ := (Config.unspecified .rspErrQ s.resets).setWidth 2,
    resets := s.resets + 1 }

end Sys2Proof.Machine
end

