-- ==== Sys2Proof/Machine/Bounded.lean ====
section
/-! DEFINITION. NEXT_BOUNDED, the bias-free sampler (42_bounded_output.md): the loop run whole and its micro-steps. -/

namespace Sys2Proof.Machine

/-- One draw kept in `r_q` (R144). -/
def State.keepDraw (s : State) : State := { s.advance with rQ := s.output }

/-- The draw in `r_q` is not below the threshold in `thr_q` (R145: `r ≥ threshold`, a draw equal to it is accepted). -/
abbrev State.accepts (s : State) : Prop := ge32 s.rQ s.thrQ

/-- The accepted draw's residue is answered (R141, R145). -/
def answerDraw (s : State) : State := s.respond (zext64 (mod32 s.rQ s.bound))

/-- The sampler's loop (R141), at most `fuel` draws: each draw advances `state` and is kept in `r_q`; the first one not
below `thr_q` ends the command. -/
def sampler : Nat → State → Result
  | 0, _ => .fault .samplerEndless
  | fuel + 1, s =>
    if s.keepDraw.accepts then .next (answerDraw s.keepDraw) else sampler fuel s.keepDraw

/-- The number of 64-bit states: no more draws than this can be told apart (R148; log entry 8). -/
def samplerFuel : Nat := 2 ^ 64

/-- The threshold of the bound, kept in `thr_q` (R140, R143). -/
def State.keepThreshold (s : State) : State := { s with thrQ := threshold s.bound }

/-- The bound's check, before any draw (R142), the threshold (R140) and the loop (R141). -/
def runBounded (s : State) : Result :=
  if s.bound = 0#32 then .next (s.raise .boundZero)
  else sampler samplerFuel s.keepThreshold

/-- NEXT_BOUNDED (R141). -/
def execNextBounded (ignoredHigh bound : U32) (ignoredB : U64) (s : State) : Result :=
  command 0x3#4 (ignoredHigh ++ bound) ignoredB runBounded s

/-- The threshold micro-step (R143). -/
def microBndThr (s : State) : State :=
  if s.bound = 0#32 then s.raise .boundZero else { s.keepThreshold with phase := .bndDraw }

/-- The draw micro-step (R144). -/
def microBndDraw (s : State) : State := { s.keepDraw with phase := .bndTest }

/-- The test micro-step (R145). -/
def microBndTest (s : State) : State :=
  if s.accepts then answerDraw s else { s with phase := .bndDraw }

end Sys2Proof.Machine
end

