-- ==== Sys2Proof/Machine/FpConv.lean ====
section
/-! DEFINITION. NEXT_DOUBLE and NEXT_DOUBLE2, option FPCONV (43_fp_conversions.md). -/

namespace Sys2Proof.Machine

/-- One draw, scaled by 2^-32 (R161, R163). -/
def doubleDraw (s : State) : State := s.advance.respond (doubleOf s.output)

/-- NEXT_DOUBLE's effect on the latched state (R161). -/
def runDouble (s : State) : Result := .next (doubleDraw s)

/-- NEXT_DOUBLE (R161). -/
def execNextDouble (ignoredA ignoredB : U64) (s : State) : Result :=
  command 0x4#4 ignoredA ignoredB runDouble s

/-- The next `n` draws, first one first (R162). -/
def State.draws : Nat → State → List U32
  | 0, _ => []
  | n + 1, s => s.output :: s.advance.draws n

/-- The state after the next `n` draws (R162). -/
def State.advances : Nat → State → State
  | 0, s => s
  | n + 1, s => s.advance.advances n

/-- The draws in `dq` assembled, scaled and answered (R162, R164). -/
def answerDouble2 (s : State) : State := s.respond (double2Of s.params.d2 s.dq)

/-- D2_NDRAWS draws into `dq`, assembled and scaled by 2^-53 (R162); `dcnt` stays at the last index (R164). -/
def runDouble2 (s : State) : Result :=
  let n := s.params.d2.ndraws
  .next (answerDouble2 { s.advances n with dq := s.draws n, dcnt := n - 1 })

/-- NEXT_DOUBLE2 (R162). -/
def execNextDouble2 (ignoredA ignoredB : U64) (s : State) : Result :=
  command 0x5#4 ignoredA ignoredB runDouble2 s

/-- One draw kept in `dq[dcnt]` (R164). -/
def State.storeDraw (s : State) : State := { s.advance with dq := s.dq.set s.dcnt s.output }

/-- The draw micro-step of NEXT_DOUBLE2 (R164). -/
def microD2Draw (s : State) : State :=
  if s.dcnt + 1 = s.params.d2.ndraws then answerDouble2 s.storeDraw
  else { s.storeDraw with dcnt := s.dcnt + 1 }

end Sys2Proof.Machine
end

