-- ==== Sys2Proof/Machine/RawOutput.lean ====
section
/-! DEFINITION. NEXT (41_raw_output.md). -/

namespace Sys2Proof.Machine

/-- One draw, zero-extended (R123, R125). -/
def rawDraw (s : State) : State := s.advance.respond (zext64 s.output)

/-- NEXT's effect on the latched state (R123). -/
def runNext (s : State) : Result := .next (rawDraw s)

/-- NEXT (R123). -/
def execNext (ignoredA ignoredB : U64) (s : State) : Result :=
  command 0x2#4 ignoredA ignoredB runNext s

end Sys2Proof.Machine
end

