-- ==== Sys2Proof/Machine/Seeding.lean ====
section
/-! DEFINITION. SEED and AUTOSEED (40_seeding.md): the big-step rule and the five micro-steps. -/

namespace Sys2Proof.Machine

/-- The five steps of R100 on the latched operands. -/
def runSeed (s : State) : Result :=
  let s1 : State := { s with state := 0#64 }
  let s2 : State := { s1 with increment := oddIncrement s1.bQ }
  let s3 := s2.advance
  let s4 : State := { s3 with state := add64 s3.state s3.aQ }
  let s5 := s4.advance
  .next ({ s5 with seeded := true }.respond 0#64)

/-- SEED (R100). -/
def execSeed (initState initSequence : U64) (s : State) : Result :=
  command 0x0#4 initState initSequence runSeed s

/-- AUTOSEED: the accept edge has latched `ent_time` and `2 * ent_id + 1`; from there SEED (R80, R108). -/
def execAutoseed (ignoredA ignoredB : U64) (s : State) : Result :=
  command 0x1#4 ignoredA ignoredB runSeed s

/-- Seeding micro-step 1 (R102). -/
def microSeedZero (s : State) : State := { s with state := 0#64, phase := .seedInc }

/-- Seeding micro-step 2 (R103). -/
def microSeedInc (s : State) : State := { s with increment := oddIncrement s.bQ, phase := .seedAdv1 }

/-- Seeding micro-step 3 (R104). -/
def microSeedAdv1 (s : State) : State := { s.advance with phase := .seedAdd }

/-- Seeding micro-step 4 (R105). -/
def microSeedAdd (s : State) : State := { s with state := add64 s.state s.aQ, phase := .seedAdv2 }

/-- Seeding micro-step 5 (R106). -/
def microSeedAdv2 (s : State) : State := { s.advance with seeded := true }.respond 0#64

end Sys2Proof.Machine
end

