-- ==== Sys2Proof/Machine/StateAccess.lean ====
section
/-! DEFINITION. RD_STATE, RD_INC and RESTORE, option STACC (44_state_access.md). -/

namespace Sys2Proof.Machine

/-- RD_STATE's answer (R180, R183). -/
def readState (s : State) : State := s.respond s.state

/-- RD_INC's answer (R181, R184). -/
def readIncrement (s : State) : State := s.respond s.increment

/-- RESTORE's effect on the latched operands; bit 0 of the increment is forced to 1 (R182, R185). -/
def restorePair (s : State) : State :=
  { s with state := s.aQ, increment := or64 s.bQ 1#64, seeded := true }.respond 0#64

/-- RD_STATE's effect on the latched state (R180). -/
def runRdState (s : State) : Result := .next (readState s)

/-- RD_INC's effect on the latched state (R181). -/
def runRdInc (s : State) : Result := .next (readIncrement s)

/-- RESTORE's effect on the latched state (R182). -/
def runRestore (s : State) : Result := .next (restorePair s)

/-- RD_STATE (R180). -/
def execRdState (ignoredA ignoredB : U64) (s : State) : Result :=
  command 0x6#4 ignoredA ignoredB runRdState s

/-- RD_INC (R181). -/
def execRdInc (ignoredA ignoredB : U64) (s : State) : Result :=
  command 0x7#4 ignoredA ignoredB runRdInc s

/-- RESTORE (R182). -/
def execRestore (stateImage incrementImage : U64) (s : State) : Result :=
  command 0x8#4 stateImage incrementImage runRestore s

end Sys2Proof.Machine
end

