-- ==== Sys2Proof/Machine/Dispatch.lean ====
section
/-! DEFINITION. One arm a command (spec/opcode_table.json). -/

namespace Sys2Proof.Machine

def exec (i : Instr) (s : State) : Host.Outcome State Fault Refusal :=
  match i with
  | .seed a b => Sys2Proof.Machine.execSeed a b s
  | .autoseed a b => Sys2Proof.Machine.execAutoseed a b s
  | .next a b => Sys2Proof.Machine.execNext a b s
  | .nextBounded high bound b => Sys2Proof.Machine.execNextBounded high bound b s
  | .nextDouble a b => Sys2Proof.Machine.execNextDouble a b s
  | .nextDouble2 a b => Sys2Proof.Machine.execNextDouble2 a b s
  | .rdState a b => Sys2Proof.Machine.execRdState a b s
  | .rdInc a b => Sys2Proof.Machine.execRdInc a b s
  | .restore a b => Sys2Proof.Machine.execRestore a b s

end Sys2Proof.Machine
end

