-- ==== Sys2Proof/Machine/Port.lean ====
section
/-! DEFINITION. The ports and the transition relation of `phase` (30_encoding.md R80 to R86): the accept edge, the
micro-steps, the response taken, reset. Written over the commands' meanings as an argument, so that Step.lean only
calls it. -/

namespace Sys2Proof.Machine

/-- The first phase of a command that passes dispatch; NEXT_DOUBLE2 also clears `dcnt` (R82). Called with assigned
opcodes only. -/
def enterPhase (op : U4) (s : State) : State :=
  if op = 0x0#4 ∨ op = 0x1#4 then { s with phase := .seedZero }
  else if op = 0x3#4 then { s with phase := .bndThr }
  else if op = 0x5#4 then { s with phase := .d2Draw, dcnt := 0 }
  else { s with phase := .exec }

/-- The accept micro-step on the command port (R80, R81, R82). -/
def microAccept (s : State) : State :=
  let s1 := s.latch s.pins.cmdOp s.pins.cmdA s.pins.cmdB
  match dispatchError s.pins.cmdOp s with
  | some e => s1.raise e
  | none => enterPhase s.pins.cmdOp s1

/-- The micro-step of `phase = EXEC`, selected by `op_q` (R125, R163, R183, R184, R185). -/
def microExec (s : State) : Result :=
  if s.opQ = 0x2#4 then .next (rawDraw s)
  else if s.opQ = 0x4#4 then .next (doubleDraw s)
  else if s.opQ = 0x6#4 then .next (readState s)
  else if s.opQ = 0x7#4 then .next (readIncrement s)
  else if s.opQ = 0x8#4 then .next (restorePair s)
  else .fault .noMicroStep

/-- The block's micro-step enabled in a phase (R86); in IDLE and RESP the block waits for the host. -/
def microStep (s : State) : Result :=
  match s.phase with
  | .idle => .next s
  | .seedZero => .next (microSeedZero s)
  | .seedInc => .next (microSeedInc s)
  | .seedAdv1 => .next (microSeedAdv1 s)
  | .seedAdd => .next (microSeedAdd s)
  | .seedAdv2 => .next (microSeedAdv2 s)
  | .exec => microExec s
  | .bndThr => .next (microBndThr s)
  | .bndDraw => .next (microBndDraw s)
  | .bndTest => .next (microBndTest s)
  | .d2Draw => .next (microD2Draw s)
  | .resp => .next s

/-- A command word run whole: the decoded command's meaning, or IllegalCommand for a reserved opcode (R71, R195). -/
def acceptCommand (meaning : Instr → State → Result) (s : State) : Result :=
  match decode s.pins.word with
  | .instr i => meaning i s
  | .reserved op => .next ((s.latch op s.pins.cmdA s.pins.cmdB).raise .illegalCommand)

/-- The accept edge in the state's pace (log entry 6). -/
def acceptEdge (meaning : Instr → State → Result) (s : State) : Result :=
  match s.pace with
  | .command => acceptCommand meaning s
  | .micro => .next (microAccept s)

/-- One transition under the present port values: reset wins (R220); a command is looked at only in IDLE (R80), a
taken response only in RESP (R84); in every other phase the block makes its micro-step (R86). -/
def portEdge (meaning : Instr → State → Result) (s : State) : Result :=
  if s.pins.rst then .next s.resetEdge
  else
    match s.phase with
    | .idle => if s.pins.cmdValid then acceptEdge meaning s else .next s
    | .resp => if s.pins.rspReady then .next s.take else .next s
    | _ => microStep s

/-- The host moves on to its next port values (R8, R236; log entry 5). -/
def State.hostMoves (s : State) : State := { s with inputs := s.inputs.tail }

/-- After the block's transition the host moves on. -/
def thenHostMoves : Result → Result
  | .next t => .next t.hostMoves
  | .fault r => .fault r
  | .refused r => .refused r

/-- The state with a command word on the command port and the block ready to run it whole: IDLE, the pace `command`,
and the present port values with that word presented (R80; log entry 13). The entropy ports keep the present sample's
values, 0 where there is none (log entry 20). -/
def State.presentWord (s : State) (w : CmdWord) : State :=
  { s with phase := .idle, pace := .command, inputs := s.pins.present w :: s.inputs.tail }

end Sys2Proof.Machine
end

