-- ==== Sys2Proof/Machine/Step.lean ====
section
/-! DEFINITION. One step: the block's transition under the port values the host drives, then the host moves on. -/

namespace Sys2Proof.Machine

/-- The step function (30_encoding.md R86). -/
def step (s : State) : Host.Outcome State Fault Refusal := thenHostMoves (portEdge exec s)

/-- `s` with the command word whose bits are `w` presented, so that the next step runs it (log entry 13). -/
def State.withFetchWord (s : State) (_nbits w : Nat) : State := s.presentWord (BitVec.ofNat 132 w)

end Sys2Proof.Machine
end

