-- ==== Sys2Proof/Safety.lean ====
section
/-! DEFINITION. The terms claims are stated in: the invariant of the block, the stream of draws, scripts served and
their responses (70_reset_and_hazards.md R235), and the number a binary64 pattern stands for (43_fp_conversions.md
R160). -/

namespace Sys2Proof.Machine

/-- What the latches and registers hold in each phase of a command in flight (R28, R29, R30, R82, R86). -/
def State.phaseFits (s : State) : Bool :=
  match s.phase with
  | .idle => true
  | .seedZero | .seedInc => decide (s.opQ = 0x0#4 ∨ s.opQ = 0x1#4)
  | .seedAdv1 | .seedAdd | .seedAdv2 =>
      decide ((s.opQ = 0x0#4 ∨ s.opQ = 0x1#4) ∧ s.increment = oddIncrement s.bQ)
  | .exec =>
      decide ((s.opQ = 0x8#4 ∨ s.seeded = true ∧ (s.opQ = 0x2#4 ∨ s.opQ = 0x4#4 ∨ s.opQ = 0x6#4 ∨ s.opQ = 0x7#4))
        ∧ reserved s.params s.opQ = false)
  | .bndThr => decide (s.opQ = 0x3#4 ∧ s.seeded = true)
  | .bndDraw | .bndTest =>
      decide (s.opQ = 0x3#4 ∧ s.seeded = true ∧ s.bound ≠ 0#32 ∧ s.thrQ = threshold s.bound)
  | .d2Draw =>
      decide (s.opQ = 0x5#4 ∧ s.seeded = true ∧ s.params.hasFpconv = true ∧ s.dcnt < s.params.d2.ndraws)
  | .resp => decide (s.rspErrQ ≠ 0#2 → s.rspDataQ = 0#64 ∧ s.faultSticky = true)

/-- The invariant of the block: the stream selector is odd once seeded (R22), `dq` has D2_NDRAWS elements and `dcnt`
is within range (R30), and the latches fit the phase. -/
abbrev State.Inv (s : State) : Prop :=
  (s.seeded = true → s.increment.getLsbD 0 = true) ∧ s.dq.length = s.params.d2.ndraws ∧
    s.dcnt ≤ s.params.d2.ndraws ∧ s.phaseFits = true

/-- The state register after `n` draws under a fixed increment (R149). -/
def stateAfter (inc : U64) : Nat → U64 → U64
  | 0, s => s
  | n + 1, s => stateAfter inc n (lcgStep s inc)

/-- The n-th draw (from 0) of the stream a pair starts (R23, R124). -/
def drawAt (inc s : U64) (n : Nat) : U32 := xshRr (stateAfter inc n s)

/-- The port values of a host that issues the command shown on them: presented, no reset (R236). -/
def Inputs.issued (p : Inputs) : Inputs := { p with rst := false, cmdValid := true }

/-- The state with the port values the host will drive. -/
def State.driving (s : State) (ports : List Inputs) : State := { s with inputs := ports }

/-- One command served in the pace `command`: presented and run whole, its response read, the response taken (R57,
R235). -/
def serve (p : Inputs) (s : State) : Option (Response × State) :=
  match step (s.driving [p.issued]) with
  | .next t => t.response.map fun r => (r, t.take)
  | .fault _ => none
  | .refused _ => none

/-- A script of commands served one after another: the list of responses and the final state (R235). -/
def runScript : List Inputs → State → Option (List Response × State)
  | [], s => some ([], s)
  | p :: rest, s =>
    match serve p s with
    | none => none
    | some (r, t) => (runScript rest t).map fun (rs, u) => (r :: rs, u)

/-- The number a pattern of the form R160 makes stands for: +0.0, or significand times a power of two. -/
def f64Value (pattern : U64) : ℚ :=
  if pattern = 0#64 then 0
  else ((2 ^ 52 + (pattern.extractLsb' 0 52).toNat : ℕ) : ℚ) *
    (2 : ℚ) ^ (((pattern.extractLsb' 52 11).toNat : ℤ) - 1075)

/-- Two states agree on all that a response may depend on (R23): the pair, `seeded` and the parameters. -/
def State.sameStream (s t : State) : Prop :=
  s.state = t.state ∧ s.increment = t.increment ∧ s.seeded = t.seeded ∧ s.params = t.params

end Sys2Proof.Machine
end

