-- ==== Sys2Proof/WellFormed.lean ====
section
/-! DEFINITION. Which commands exist on an instance (00_scope.md R3, 43_fp_conversions.md R170). Every operand value
of the right width is legal (R68, R196), so the option is the one check. -/

namespace Sys2Proof

/-- The command's option is present: the FPCONV commands exist only when HAS_FPCONV is true (R3, R170). -/
def Instr.wellFormed (p : Params) : Instr → Bool
  | .seed _ _ => true
  | .autoseed _ _ => true
  | .next _ _ => true
  | .nextBounded _ _ _ => true
  | .nextDouble _ _ => p.hasFpconv
  | .nextDouble2 _ _ => p.hasFpconv
  | .rdState _ _ => true
  | .rdInc _ _ => true
  | .restore _ _ => true

end Sys2Proof
end

