-- ==== Sys2Proof/Certificates/Slice0/Obligations.lean ====
section
/-! DEFINITION. The statements for the provers, each from the numbered rules of spec/. -/

open Sys2Proof Sys2Proof.Machine

/-! ### Reset and outputs -/

/-- What R35 fixes of the state after reset, with the outputs of its last paragraph. -/
def Obligations.ResetLeavesIdleUnseeded : Prop :=
  State.reset.seeded = false ∧ State.reset.faultSticky = false ∧ State.reset.phase = .idle ∧
    State.reset.cmdReady = true ∧ State.reset.rspValid = false ∧ State.reset.stSeeded = false ∧
    State.reset.stFault = false ∧ State.reset.stBusy = false

/-- The invariant holds after reset (R22, R30, R35). -/
def Obligations.ResetMeetsInvariant : Prop := State.reset.Inv

/-- R220: a reset edge, whatever the phase and the other inputs, leaves IDLE with both status bits 0; no command is
accepted and no response taken. One sample of the ports is used up (the model's choice, log entry 5). -/
def Obligations.ResetEdgeClearsStatus : Prop :=
  ∀ s : State, s.pins.rst = true →
    ∃ t : State, step s = .next t ∧ t.phase = .idle ∧ t.seeded = false ∧ t.faultSticky = false ∧
      t.response = none ∧ t.params = s.params ∧ t.inputs = s.inputs.tail

/-- R33, R85: every output is the function of a register the spec gives. -/
def Obligations.OutputsFollowRegisters : Prop :=
  ∀ s : State,
    (s.cmdReady = true ↔ s.phase = .idle) ∧ (s.rspValid = true ↔ s.phase = .resp) ∧
    s.stSeeded = s.seeded ∧ s.stFault = s.faultSticky ∧ (s.stBusy = true ↔ s.phase ≠ .idle)

/-! ### Encoding -/

/-- Decoding the word of a command gives the command back, every operand at every value (R66, R67, R70). -/
def Obligations.DecodeOfEncode : Prop := ∀ i : Instr, decode (encode i) = .instr i

/-- A word that decodes to a command is that command's word: no bit is dropped (R66, R67). -/
def Obligations.EncodeOfDecode : Prop :=
  ∀ (w : CmdWord) (i : Instr), decode w = .instr i → encode i = w

/-- R70, R71: the opcode alone selects the command; 0x9 to 0xF are reserved. -/
def Obligations.OpcodeMapDecodes : Prop :=
  ∀ a b : U64,
    decode (0x0#4 ++ a ++ b) = .instr (.seed a b) ∧
    decode (0x1#4 ++ a ++ b) = .instr (.autoseed a b) ∧
    decode (0x2#4 ++ a ++ b) = .instr (.next a b) ∧
    decode (0x3#4 ++ a ++ b) = .instr (.nextBounded (a.extractLsb' 32 32) (a.setWidth 32) b) ∧
    decode (0x4#4 ++ a ++ b) = .instr (.nextDouble a b) ∧
    decode (0x5#4 ++ a ++ b) = .instr (.nextDouble2 a b) ∧
    decode (0x6#4 ++ a ++ b) = .instr (.rdState a b) ∧
    decode (0x7#4 ++ a ++ b) = .instr (.rdInc a b) ∧
    decode (0x8#4 ++ a ++ b) = .instr (.restore a b) ∧
    ∀ op : U4, 0x9#4 ≤ op → decode (op ++ a ++ b) = .reserved op

/-- A few words of 95_test_vectors.md section 8, bit 0 the least significant of `cmd_b`. -/
def Obligations.ListedWordsDecode : Prop :=
  decodeTableWord 132 0x0000000000000002A0000000000000036 = some (.seed 42#64 54#64) ∧
  decodeTableWord 132 0x100000000000000000000000000000000 = some (.autoseed 0#64 0#64) ∧
  decodeTableWord 132 0x200000000000000000000000000000000 = some (.next 0#64 0#64) ∧
  decodeTableWord 132 0x3FFFFFFFF000000060000000000000000 =
    some (.nextBounded 0xFFFFFFFF#32 6#32 0#64) ∧
  decodeTableWord 132 0x500000000000000000000000000000000 = some (.nextDouble2 0#64 0#64) ∧
  decodeTableWord 132 0x8ACAB187723B11533000000000000006F =
    some (.restore 0xACAB187723B11533#64 0x6F#64) ∧
  decodeTableWord 132 0xF00000000000000000000000000000000 = none

/-! ### The step -/

/-- The model's way of placing a command (log entry 13): the next step runs the command `decodeTableWord` reads (R66,
R80). -/
def Obligations.FetchWordRunsNext : Prop :=
  ∀ (s : State) (nbits w : Nat) (i : Instr), decodeTableWord nbits w = some i →
    step (s.withFetchWord nbits w) = thenHostMoves (exec i (s.withFetchWord nbits w))

/-- In IDLE, without reset and with a command presented, a step of the pace `command` is exec of the decoded command,
after which the host moves to its next port values (R80; the pace and the port values are the model's, log entries 5
and 6). -/
def Obligations.StepRunsDecodedCommand : Prop :=
  ∀ (s : State) (i : Instr), s.pins.rst = false → s.phase = .idle → s.pins.cmdValid = true → s.pace = .command →
    decode s.pins.word = .instr i → step s = thenHostMoves (exec i s)

/-- R80: a command presented while the block is busy has no effect: outside IDLE the step does not depend on the
command port. -/
def Obligations.BusyBlockIgnoresCommandPort : Prop :=
  ∀ (s : State) (p q : Inputs) (rest : List Inputs), s.phase ≠ .idle → p.rst = q.rst → p.rspReady = q.rspReady →
    step { s with inputs := p :: rest } = step { s with inputs := q :: rest }

/-- R80: in IDLE with no command presented nothing changes. One sample of the ports is used up (the model's choice, log
entry 5). -/
def Obligations.IdleWithoutCommandHolds : Prop :=
  ∀ s : State, s.pins.rst = false → s.phase = .idle → s.pins.cmdValid = false →
    step s = .next { s with inputs := s.inputs.tail }

/-- R84: a response is held until `rsp_ready`, and taking it changes `phase` alone. One sample of the ports is used up
(the model's choice, log entry 5). -/
def Obligations.ResponseHeldUntilTaken : Prop :=
  ∀ s : State, s.pins.rst = false → s.phase = .resp →
    (s.pins.rspReady = false → step s = .next { s with inputs := s.inputs.tail }) ∧
    (s.pins.rspReady = true → step s = .next { s with phase := .idle, inputs := s.inputs.tail })

/-- R62: the entropy inputs are read only when an AUTOSEED is accepted. -/
def Obligations.EntropyReadOnlyByAutoseed : Prop :=
  ∀ (s : State) (p : Inputs) (rest : List Inputs) (t h : U64),
    ¬ (p.rst = false ∧ s.phase = .idle ∧ p.cmdValid = true ∧ p.cmdOp = 0x1#4) →
    step { s with inputs := p :: rest } = step { s with inputs := { p with entTime := t, entId := h } :: rest }

/-- R25, R26: without a reset edge no step clears `seeded` or `fault_sticky`. -/
def Obligations.OnlyResetClearsStatus : Prop :=
  ∀ s t : State, s.pins.rst = false → step s = .next t →
    (s.seeded = true → t.seeded = true) ∧ (s.faultSticky = true → t.faultSticky = true)

/-! ### What each command does -/

/-- R100, R101: SEED in closed form; every register it does not name is unchanged. -/
def Obligations.SeedCompletes : Prop :=
  ∀ (a b : U64) (s : State), s.phase = .idle →
    exec (.seed a b) s = .next { s with
      opQ := 0x0#4, aQ := a, bQ := b,
      state := 6364136223846793005#64 * (((b <<< 1) ||| 1#64) + a) + ((b <<< 1) ||| 1#64),
      increment := (b <<< 1) ||| 1#64, seeded := true, rspDataQ := 0#64, rspErrQ := 0#2, phase := .resp }

/-- R108, R109: AUTOSEED in closed form, from the entropy values on the ports. -/
def Obligations.AutoseedCompletes : Prop :=
  ∀ (a b : U64) (s : State), s.phase = .idle →
    exec (.autoseed a b) s = .next { s with
      opQ := 0x1#4, aQ := s.pins.entTime, bQ := BitVec.ofNat 64 (2 * s.pins.entId.toNat + 1),
      state := 6364136223846793005#64 * (BitVec.ofNat 64 (4 * s.pins.entId.toNat + 3) + s.pins.entTime) +
        BitVec.ofNat 64 (4 * s.pins.entId.toNat + 3),
      increment := BitVec.ofNat 64 (4 * s.pins.entId.toNat + 3),
      seeded := true, rspDataQ := 0#64, rspErrQ := 0#2, phase := .resp }

/-- R112 (b): bit 63 of SEED's sequence has no influence on the pair. -/
def Obligations.SeedIgnoresTopSequenceBit : Prop :=
  ∀ (a b : U64) (s t u : State), exec (.seed a b) s = .next t → exec (.seed a (b + 0x8000000000000000#64)) s = .next u →
    u.state = t.state ∧ u.increment = t.increment

/-- R111: a seeding discards the previous pair: the new one depends on the operands only. -/
def Obligations.ReseedingForgetsThePair : Prop :=
  ∀ (a b : U64) (s t : State), s.phase = .idle → t.phase = .idle →
    ∃ u v : State, exec (.seed a b) s = .next u ∧ exec (.seed a b) t = .next v ∧
      u.state = v.state ∧ u.increment = v.increment ∧ u.faultSticky = s.faultSticky

/-- R110: equal `ent_time` and equal `ent_id mod 2^62` give equal pairs. -/
def Obligations.AutoseedCollides : Prop :=
  ∀ (a b a' b' : U64) (s t u v : State), s.phase = .idle → t.phase = .idle →
    s.pins.entTime = t.pins.entTime → s.pins.entId.toNat % 2 ^ 62 = t.pins.entId.toNat % 2 ^ 62 →
    exec (.autoseed a b) s = .next u → exec (.autoseed a' b') t = .next v →
    u.state = v.state ∧ u.increment = v.increment

/-- R123: NEXT on a seeded block. -/
def Obligations.NextCompletes : Prop :=
  ∀ (a b : U64) (s : State), s.phase = .idle → s.seeded = true →
    exec (.next a b) s = .next { s with
      opQ := 0x2#4, aQ := a, bQ := b, state := lcgStep s.state s.increment,
      rspDataQ := (xshRr s.state).setWidth 64, rspErrQ := 0#2, phase := .resp }

/-- R141: NEXT_BOUNDED on a seeded block, where the n-th draw is the first one not below the threshold; 2^64 is the
model's bound on the loop (log entry 8), which by R128 no odd increment reaches. -/
def Obligations.NextBoundedAnswersFirstAcceptedDraw : Prop :=
  ∀ (high bound : U32) (b : U64) (s : State) (n : Nat), s.phase = .idle → s.seeded = true → bound ≠ 0#32 →
    n < 2 ^ 64 → (∀ j, j < n → drawAt s.increment s.state j < threshold bound) →
    threshold bound ≤ drawAt s.increment s.state n →
    exec (.nextBounded high bound b) s = .next { s with
      opQ := 0x3#4, aQ := high ++ bound, bQ := b, thrQ := threshold bound, rQ := drawAt s.increment s.state n,
      state := stateAfter s.increment (n + 1) s.state,
      rspDataQ := (drawAt s.increment s.state n % bound).setWidth 64, rspErrQ := 0#2, phase := .resp }

/-- R148, R149: with an odd increment (R22) the loop ends for every bound other than 0, after n + 1 draws for some n.
R148 says of itself: "This rule depends on the full-period fact of rule R128, which is marked as general knowledge". -/
def Obligations.NextBoundedAlwaysAnswers : Prop :=
  ∀ (high bound : U32) (b : U64) (s : State), s.phase = .idle → s.seeded = true → s.increment.getLsbD 0 = true →
    bound ≠ 0#32 →
    ∃ (n : Nat) (t : State), exec (.nextBounded high bound b) s = .next t ∧ t.rspErrQ = 0#2 ∧
      (∀ j, j < n → drawAt s.increment s.state j < threshold bound) ∧
      threshold bound ≤ drawAt s.increment s.state n ∧
      t.rspDataQ = (drawAt s.increment s.state n % bound).setWidth 64 ∧
      t.state = stateAfter s.increment (n + 1) s.state

/-- R149: a bound that is a power of two takes exactly one draw. -/
def Obligations.PowerOfTwoBoundTakesOneDraw : Prop :=
  ∀ (high bound : U32) (b : U64) (s : State) (k : Nat), s.phase = .idle → s.seeded = true → k < 32 →
    bound = BitVec.ofNat 32 (2 ^ k) →
    ∃ t : State, exec (.nextBounded high bound b) s = .next t ∧ t.state = lcgStep s.state s.increment ∧
      t.rspErrQ = 0#2 ∧ t.rspDataQ.toNat = (xshRr s.state).toNat % 2 ^ k

/-- R147: a bounded result lies below the bound. -/
def Obligations.BoundedResultBelowBound : Prop :=
  ∀ (high bound : U32) (b : U64) (s t : State), s.phase = .idle →
    exec (.nextBounded high bound b) s = .next t → t.rspErrQ = 0#2 → t.rspDataQ.toNat < bound.toNat

/-- R161: NEXT_DOUBLE on a seeded block with FPCONV. -/
def Obligations.NextDoubleCompletes : Prop :=
  ∀ (a b : U64) (s : State), s.phase = .idle → s.seeded = true → s.params.hasFpconv = true →
    exec (.nextDouble a b) s = .next { s with
      opQ := 0x4#4, aQ := a, bQ := b, state := lcgStep s.state s.increment,
      rspDataQ := f64Scaled (xshRr s.state).toNat 32, rspErrQ := 0#2, phase := .resp }

/-- R162: NEXT_DOUBLE2 on a seeded block with FPCONV, for every choice of the open parameters (log entry 4). -/
def Obligations.NextDouble2Completes : Prop :=
  ∀ (a b : U64) (s : State), s.phase = .idle → s.seeded = true → s.params.hasFpconv = true →
    ∃ n : Nat, n < 2 ^ 53 ∧
      n = (d2Assemble s.params.d2 ((List.range s.params.d2.ndraws).map (drawAt s.increment s.state))).toNat ∧
      exec (.nextDouble2 a b) s = .next { s with
        opQ := 0x5#4, aQ := a, bQ := b,
        dq := (List.range s.params.d2.ndraws).map (drawAt s.increment s.state), dcnt := s.params.d2.ndraws - 1,
        state := stateAfter s.increment s.params.d2.ndraws s.state,
        rspDataQ := f64Scaled n 53, rspErrQ := 0#2, phase := .resp }

/-- R165, with the default named as a premise: two draws, the top 27 bits of the first and the top 26 of the second. -/
def Obligations.NextDouble2UnderDefault : Prop :=
  ∀ (a b : U64) (s : State), s.phase = .idle → s.seeded = true → s.params.hasFpconv = true →
    s.params.d2 = .customary →
    ∃ t : State, exec (.nextDouble2 a b) s = .next t ∧ t.rspErrQ = 0#2 ∧
      t.state = lcgStep (lcgStep s.state s.increment) s.increment ∧
      t.rspDataQ = f64Scaled ((xshRr s.state).toNat / 2 ^ 5 * 2 ^ 26 +
        (xshRr (lcgStep s.state s.increment)).toNat / 2 ^ 6) 53

/-- R180: RD_STATE on a seeded block. -/
def Obligations.RdStateCompletes : Prop :=
  ∀ (a b : U64) (s : State), s.phase = .idle → s.seeded = true →
    exec (.rdState a b) s = .next { s with
      opQ := 0x6#4, aQ := a, bQ := b, rspDataQ := s.state, rspErrQ := 0#2, phase := .resp }

/-- R181: RD_INC on a seeded block; the increment it answers is odd (R22). -/
def Obligations.RdIncCompletes : Prop :=
  ∀ (a b : U64) (s : State), s.phase = .idle → s.seeded = true →
    exec (.rdInc a b) s = .next { s with
      opQ := 0x7#4, aQ := a, bQ := b, rspDataQ := s.increment, rspErrQ := 0#2, phase := .resp } ∧
    (s.Inv → s.increment.toNat % 2 = 1)

/-- R182: RESTORE, in any state of the block that is idle. -/
def Obligations.RestoreCompletes : Prop :=
  ∀ (a b : U64) (s : State), s.phase = .idle →
    exec (.restore a b) s = .next { s with
      opQ := 0x8#4, aQ := a, bQ := b, state := a, increment := b ||| 1#64, seeded := true,
      rspDataQ := 0#64, rspErrQ := 0#2, phase := .resp }

/-- R14, R24, R30: what a command leaves unchanged, whatever it answers: the host's port values, the parameters and the
model's own fields always, the sampler's latches but for NEXT_BOUNDED, the draws but for NEXT_DOUBLE2, and everything
when the block is busy (log entry 7). -/
def Obligations.CommandFrame : Prop :=
  ∀ (i : Instr) (s t : State), exec i s = .next t →
    (t.inputs = s.inputs ∧ t.params = s.params ∧ t.pace = s.pace ∧ t.resets = s.resets) ∧
    (i.opcode ≠ 0x3#4 → t.thrQ = s.thrQ ∧ t.rQ = s.rQ) ∧
    (i.opcode ≠ 0x5#4 → t.dq = s.dq ∧ t.dcnt = s.dcnt) ∧
    (t.rspErrQ = 0#2 → t.faultSticky = s.faultSticky) ∧
    (s.phase ≠ .idle → t = s)

/-- R24's table: who writes `state`, `increment` and `seeded`, and how often `state` advances; for NEXT_BOUNDED once for
each draw up to the first one not below the threshold (R141). -/
def Obligations.WhoWritesThePair : Prop :=
  ∀ (i : Instr) (s t : State), s.phase = .idle → exec i s = .next t →
    (t.rspErrQ ≠ 0#2 → t.state = s.state ∧ t.increment = s.increment ∧ t.seeded = s.seeded) ∧
    (t.rspErrQ = 0#2 →
      match i with
      | .seed _ _ | .autoseed _ _ | .restore _ _ => t.seeded = true ∧ t.increment.getLsbD 0 = true
      | .next _ _ | .nextDouble _ _ =>
          t.state = lcgStep s.state s.increment ∧ t.increment = s.increment ∧ t.seeded = s.seeded
      | .nextBounded _ bound _ =>
          (∃ n : Nat, (∀ j, j < n → drawAt s.increment s.state j < threshold bound) ∧
              threshold bound ≤ drawAt s.increment s.state n ∧
              t.state = stateAfter s.increment (n + 1) s.state) ∧
            t.increment = s.increment ∧ t.seeded = s.seeded
      | .nextDouble2 _ _ =>
          t.state = stateAfter s.increment s.params.d2.ndraws s.state ∧ t.increment = s.increment ∧
            t.seeded = s.seeded
      | .rdState _ _ | .rdInc _ _ => t.state = s.state ∧ t.increment = s.increment ∧ t.seeded = s.seeded)

/-! ### Errors -/

/-- R194: an output or read command that exists on the instance, on an unseeded block, is answered Unseeded. -/
def Obligations.UnseededCommandIsAnswered : Prop :=
  ∀ (i : Instr) (s : State), s.phase = .idle → s.seeded = false → i.wellFormed s.params = true →
    0x2#4 ≤ i.opcode → i.opcode ≤ 0x7#4 →
    exec i s = .next { s with
      opQ := i.opcode, aQ := i.operandA, bQ := i.operandB, rspErrQ := 2#2, rspDataQ := 0#64, faultSticky := true,
      phase := .resp }

/-- R142, R193: NEXT_BOUNDED with a zero low half on a seeded block is answered BoundZero, without a draw. -/
def Obligations.ZeroBoundIsAnswered : Prop :=
  ∀ (high : U32) (b : U64) (s : State), s.phase = .idle → s.seeded = true →
    exec (.nextBounded high 0#32 b) s = .next { s with
      opQ := 0x3#4, aQ := high ++ 0#32, bQ := b, rspErrQ := 1#2, rspDataQ := 0#64, faultSticky := true,
      phase := .resp }

/-- R71, R80, R170, R191, R195: a reserved opcode is accepted and answered IllegalCommand with no other effect, in either
pace; the two paces (log entry 6) and the sample of the ports used up (log entry 5) are the model's choices. -/
def Obligations.ReservedOpcodeIsAnswered : Prop :=
  ∀ s : State, s.pins.rst = false → s.phase = .idle → s.pins.cmdValid = true →
    (0x9#4 ≤ s.pins.cmdOp ∨ s.params.hasFpconv = false ∧ (s.pins.cmdOp = 0x4#4 ∨ s.pins.cmdOp = 0x5#4)) →
    step s = .next { s with
      opQ := s.pins.cmdOp, aQ := s.pins.cmdA, bQ := s.pins.cmdB, rspErrQ := 3#2, rspDataQ := 0#64,
      faultSticky := true, phase := .resp, inputs := s.inputs.tail }

/-- R192: the first that applies of IllegalCommand, Unseeded, BoundZero is reported; R196: nothing else errs. -/
def Obligations.ErrorsInPriorityOrder : Prop :=
  ∀ (i : Instr) (s t : State), s.phase = .idle → exec i s = .next t →
    (i.wellFormed s.params = false → t.rspErrQ = 3#2) ∧
    (i.wellFormed s.params = true → 0x2#4 ≤ i.opcode → i.opcode ≤ 0x7#4 → s.seeded = false → t.rspErrQ = 2#2) ∧
    (i.wellFormed s.params = true → s.seeded = true →
      t.rspErrQ = if i.opcode = 0x3#4 ∧ i.operandA.setWidth 32 = 0#32 then 1#2 else 0#2) ∧
    (i.wellFormed s.params = true → ¬ (0x2#4 ≤ i.opcode ∧ i.opcode ≤ 0x7#4) → t.rspErrQ = 0#2)

/-- R191: an erring command writes the response latches, `fault_sticky` and `phase` beside the command latches, and
nothing else. -/
def Obligations.ErrorsArePrecise : Prop :=
  ∀ (i : Instr) (s t : State), s.phase = .idle → exec i s = .next t → t.rspErrQ ≠ 0#2 →
    t = { s with
      opQ := t.opQ, aQ := t.aQ, bQ := t.bQ, rspErrQ := t.rspErrQ, rspDataQ := 0#64, faultSticky := true,
      phase := .resp }

/-! ### The micro-steps -/

/-- R80, R81, R82: the accept micro-step of an assigned opcode that passes the checks, in the pace `micro`, which is the
model's choice (log entry 6). -/
def Obligations.AcceptEntersFirstPhase : Prop :=
  ∀ (s : State) (i : Instr), s.pins.rst = false → s.phase = .idle → s.pins.cmdValid = true → s.pace = .micro →
    decode s.pins.word = .instr i → i.wellFormed s.params = true → (s.seeded = true ∨ i.opcode ∈ [0x0#4, 0x1#4, 0x8#4]) →
    ∃ t : State, step s = .next t ∧ t.opQ = s.pins.cmdOp ∧
      t.aQ = (if s.pins.cmdOp = 0x1#4 then s.pins.entTime else s.pins.cmdA) ∧
      t.bQ = (if s.pins.cmdOp = 0x1#4 then (s.pins.entId <<< 1) + 1#64 else s.pins.cmdB) ∧
      t.state = s.state ∧ t.increment = s.increment ∧ t.seeded = s.seeded ∧
      t.phase = (match i with
        | .seed _ _ | .autoseed _ _ => .seedZero
        | .nextBounded _ _ _ => .bndThr
        | .nextDouble2 _ _ => .d2Draw
        | .next _ _ | .nextDouble _ _ | .rdState _ _ | .rdInc _ _ | .restore _ _ => .exec) ∧
      (s.pins.cmdOp = 0x5#4 → t.dcnt = 0)

/-- R102 to R106: the five seeding micro-steps. Each uses up one sample of the ports (the model's choice, log entry 5). -/
def Obligations.SeedingMicroSteps : Prop :=
  ∀ s : State, s.pins.rst = false →
    (s.phase = .seedZero →
      step s = .next { s with state := 0#64, phase := .seedInc, inputs := s.inputs.tail }) ∧
    (s.phase = .seedInc →
      step s = .next { s with increment := (s.bQ <<< 1) ||| 1#64, phase := .seedAdv1, inputs := s.inputs.tail }) ∧
    (s.phase = .seedAdv1 →
      step s = .next { s with
        state := lcgStep s.state s.increment, phase := .seedAdd, inputs := s.inputs.tail }) ∧
    (s.phase = .seedAdd →
      step s = .next { s with state := s.state + s.aQ, phase := .seedAdv2, inputs := s.inputs.tail }) ∧
    (s.phase = .seedAdv2 →
      step s = .next { s with
        state := lcgStep s.state s.increment, seeded := true, rspDataQ := 0#64, rspErrQ := 0#2, phase := .resp,
        inputs := s.inputs.tail })

/-- R125, R163, R183, R184, R185: the micro-step of EXEC by `op_q`. It uses up one sample of the ports (the model's
choice, log entry 5). -/
def Obligations.ExecPhaseMicroSteps : Prop :=
  ∀ s : State, s.pins.rst = false → s.phase = .exec →
    (s.opQ = 0x2#4 → step s = .next { s with
      state := lcgStep s.state s.increment, rspDataQ := (xshRr s.state).setWidth 64, rspErrQ := 0#2, phase := .resp,
      inputs := s.inputs.tail }) ∧
    (s.opQ = 0x4#4 → step s = .next { s with
      state := lcgStep s.state s.increment, rspDataQ := f64Scaled (xshRr s.state).toNat 32, rspErrQ := 0#2,
      phase := .resp, inputs := s.inputs.tail }) ∧
    (s.opQ = 0x6#4 → step s = .next { s with
      rspDataQ := s.state, rspErrQ := 0#2, phase := .resp, inputs := s.inputs.tail }) ∧
    (s.opQ = 0x7#4 → step s = .next { s with
      rspDataQ := s.increment, rspErrQ := 0#2, phase := .resp, inputs := s.inputs.tail }) ∧
    (s.opQ = 0x8#4 → step s = .next { s with
      state := s.aQ, increment := s.bQ ||| 1#64, seeded := true, rspDataQ := 0#64, rspErrQ := 0#2, phase := .resp,
      inputs := s.inputs.tail })

/-- R143, R144, R145: the sampler's micro-steps. Each uses up one sample of the ports (the model's choice, log entry 5). -/
def Obligations.SamplerMicroSteps : Prop :=
  ∀ s : State, s.pins.rst = false →
    (s.phase = .bndThr →
      step s = .next (if s.aQ.setWidth 32 = 0#32 then
        { s with rspErrQ := 1#2, rspDataQ := 0#64, faultSticky := true, phase := .resp, inputs := s.inputs.tail }
      else { s with thrQ := threshold (s.aQ.setWidth 32), phase := .bndDraw, inputs := s.inputs.tail })) ∧
    (s.phase = .bndDraw →
      step s = .next { s with
        rQ := xshRr s.state, state := lcgStep s.state s.increment, phase := .bndTest, inputs := s.inputs.tail }) ∧
    (s.phase = .bndTest →
      step s = .next (if s.thrQ ≤ s.rQ then
        { s with
          rspDataQ := (s.rQ % s.aQ.setWidth 32).setWidth 64, rspErrQ := 0#2, phase := .resp,
          inputs := s.inputs.tail }
      else { s with phase := .bndDraw, inputs := s.inputs.tail }))

/-- R164: the draw micro-step of NEXT_DOUBLE2. It uses up one sample of the ports (the model's choice, log entry 5). -/
def Obligations.Double2MicroStep : Prop :=
  ∀ s : State, s.pins.rst = false → s.phase = .d2Draw →
    step s = .next (if s.dcnt + 1 = s.params.d2.ndraws then
      { s with
        dq := s.dq.set s.dcnt (xshRr s.state), state := lcgStep s.state s.increment,
        rspDataQ := f64Scaled (d2Assemble s.params.d2 (s.dq.set s.dcnt (xshRr s.state))).toNat 53,
        rspErrQ := 0#2, phase := .resp, inputs := s.inputs.tail }
    else
      { s with
        dq := s.dq.set s.dcnt (xshRr s.state), state := lcgStep s.state s.increment, dcnt := s.dcnt + 1,
        inputs := s.inputs.tail })

/-- R107, R152 and their like for every command: from the accept, the micro-steps reach exactly the state the big-step
rule gives, and the block shows neither IDLE nor RESP on the way. The two paces are the model's (log entry 6). -/
def Obligations.MicroStepsRefineCommand : Prop :=
  ∀ (s t : State) (i : Instr), s.Inv → s.phase = .idle → s.pace = .micro → s.pins.cmdValid = true →
    (∀ p ∈ s.inputs, p.rst = false) → decode s.pins.word = .instr i → exec i s = .next t →
    ∃ n : Nat, Host.Core.run Sys2Proof.core n s = .next { t with inputs := s.inputs.drop n } ∧
      ∀ (m : Nat) (u : State), 0 < m → m < n → Host.Core.run Sys2Proof.core m s = .next u →
        u.phase ≠ .idle ∧ u.phase ≠ .resp

/-- The model's fault of a command run whole (log entry 8) is exact: where it is raised, the micro-steps go on for ever
without an answer (R141, R148). -/
def Obligations.EndlessSamplerNeverAnswers : Prop :=
  ∀ (s : State) (i : Instr), s.phase = .idle → s.pace = .micro → s.pins.cmdValid = true →
    (∀ p ∈ s.inputs, p.rst = false) → decode s.pins.word = .instr i → exec i s = .fault .samplerEndless →
    ∀ n : Nat, 0 < n → ∃ u : State, Host.Core.run Sys2Proof.core n s = .next u ∧ u.phase ≠ .idle ∧ u.phase ≠ .resp

/-! ### Invariants and whole-machine rules -/

/-- R22 with R30 and R86: every step keeps the invariant, in every pace, under every port values. -/
def Obligations.StepKeepsInvariant : Prop :=
  ∀ s t : State, s.Inv → step s = .next t → t.Inv

/-- R196, R148, R233: under the invariant no step stops. -/
def Obligations.StepNeverStops : Prop :=
  ∀ s : State, s.Inv → ∃ t : State, step s = .next t

/-- R23: the responses to a script, and the pair and `seeded` it leaves, depend on the pair, `seeded`, the parameters and
the script alone; commands are served whole (log entry 6). -/
def Obligations.ResponsesDependOnPairAlone : Prop :=
  ∀ (script : List Inputs) (s t : State), s.phase = .idle → t.phase = .idle → s.pace = .command → t.pace = .command →
    s.sameStream t →
    (runScript script s).map (fun (rs, u) => (rs, u.state, u.increment, u.seeded)) =
      (runScript script t).map (fun (rs, u) => (rs, u.state, u.increment, u.seeded))

/-- R186: RESTORE of what RD_STATE and RD_INC answered, on any idle block with the same parameters, gives every later
script the responses and final pair it would have had from the saved point; commands are served whole (log entry 6). -/
def Obligations.RestoreReproducesSavedPoint : Prop :=
  ∀ (s s1 s2 t t1 : State) (p q r : Inputs) (x y z : Response), s.Inv → s.phase = .idle → s.pace = .command →
    s.seeded = true → t.phase = .idle → t.pace = .command → t.params = s.params →
    p.cmdOp = 0x6#4 → serve p s = some (x, s1) → q.cmdOp = 0x7#4 → serve q s1 = some (y, s2) →
    r.cmdOp = 0x8#4 → r.cmdA = x.data → r.cmdB = y.data → serve r t = some (z, t1) →
    ∀ script : List Inputs,
      (runScript script t1).map (fun (rs, u) => (rs, u.state, u.increment)) =
        (runScript script s).map (fun (rs, u) => (rs, u.state, u.increment))

/-- R57 (c), R235: every script is answered whole, one response a command, and leaves the block idle and within the
invariant; commands are served whole (log entry 6). -/
def Obligations.EveryScriptIsAnswered : Prop :=
  ∀ (script : List Inputs) (s : State), s.Inv → s.phase = .idle → s.pace = .command →
    ∃ (rs : List Response) (u : State), runScript script s = some (rs, u) ∧ rs.length = script.length ∧
      u.Inv ∧ u.phase = .idle

/-! ### Arithmetic -/

/-- R120: the state advance is `(s * MULT + inc) mod 2^64`. -/
def Obligations.LcgStepIsModular : Prop :=
  ∀ s inc : U64, (lcgStep s inc).toNat = (s.toNat * 6364136223846793005 + inc.toNat) % 2 ^ 64

/-- R126 (f): for a fixed increment the state advance is a bijection. -/
def Obligations.LcgStepIsBijective : Prop :=
  ∀ inc : U64, Function.Bijective (fun s : U64 => lcgStep s inc)

/-- R128, which the spec marks as general knowledge: for an odd increment the states form one cycle of length exactly
2^64. -/
def Obligations.LcgHasFullPeriod : Prop :=
  ∀ inc s : U64, inc.getLsbD 0 = true →
    (∀ u : U64, ∃ n : Nat, n < 2 ^ 64 ∧ stateAfter inc n s = u) ∧
    ∀ m n : Nat, stateAfter inc m s = stateAfter inc n s ↔ m % 2 ^ 64 = n % 2 ^ 64

/-- R121's bit-level reading: with `y = s xor (s >> 18)`, `xorshifted = y[58:27]` and `rotation = s[63:59]`. -/
def Obligations.PermutationReadsBits : Prop :=
  ∀ s : U64,
    (∀ i, i < 32 → (xorshifted s).getLsbD i = ((s.getLsbD (i + 27)) ^^ (s.getLsbD (i + 45)))) ∧
    (∀ i, i < 5 → (rotationAmount s).getLsbD i = s.getLsbD (i + 59)) ∧
    xshRr s = ror32 (xorshifted s) (rotationAmount s)

/-- R122: bit i of the rotated word is bit (i + n) mod 32 of the word. -/
def Obligations.RotationMovesBits : Prop :=
  ∀ (v : U32) (n : U5) (i : Nat), i < 32 → (ror32 v n).getLsbD i = v.getLsbD ((i + n.toNat) % 32)

/-- R127: every 32-bit value is the output of exactly 2^32 states. -/
def Obligations.PermutationIsEvenToOne : Prop :=
  ∀ r : U32, Nat.card { s : U64 // xshRr s = r } = 2 ^ 32

/-- R146: the laws of the threshold. -/
def Obligations.ThresholdLaws : Prop :=
  ∀ b : U32, b ≠ 0#32 →
    (neg32 b).toNat = 2 ^ 32 - b.toNat ∧ (threshold b).toNat = (2 ^ 32 - b.toNat) % b.toNat ∧
    (threshold b).toNat = 2 ^ 32 % b.toNat ∧ (threshold b).toNat < b.toNat ∧
    (threshold b = 0#32 ↔ ∃ k, k < 32 ∧ b.toNat = 2 ^ k) ∧
    2 ^ 32 - (threshold b).toNat = b.toNat * (2 ^ 32 / b.toNat) ∧
    (2 ^ 31 < b.toNat → (threshold b).toNat = 2 ^ 32 - b.toNat ∧ (threshold b).toNat ≤ 2 ^ 31 - 1)

/-- R150: each residue is the result of exactly floor(2^32 / bound) accepted draws. -/
def Obligations.AcceptedResiduesAreEven : Prop :=
  ∀ b v : U32, v < b → Nat.card { r : U32 // threshold b ≤ r ∧ r % b = v } = 2 ^ 32 / b.toNat

/-- R160: the pattern stands for the number `n * 2^-k`, in the binary64 layout the spec takes from general knowledge (log
entry 17). -/
def Obligations.PatternStandsForScaledNumber : Prop :=
  ∀ n k : Nat, n < 2 ^ 53 → k ≤ 1022 → f64Value (f64Scaled n k) = (n : ℚ) / 2 ^ k

/-- R166: the results of both conversions lie below 1.0, and the largest patterns, in the binary64 layout the spec takes
from general knowledge (R160, log entry 17). -/
def Obligations.DoublesLieBelowOne : Prop :=
  (∀ (i : Instr) (s t : State), s.phase = .idle → (i.opcode = 0x4#4 ∨ i.opcode = 0x5#4) → exec i s = .next t →
    t.rspErrQ = 0#2 → t.rspDataQ < 0x3FF0000000000000#64) ∧
  (∀ r : U32, doubleOf r ≤ doubleOf 0xFFFFFFFF#32) ∧ doubleOf 0xFFFFFFFF#32 = 0x3FEFFFFFFFE00000#64 ∧
  (∀ n : Nat, n < 2 ^ 53 → f64Scaled n 53 ≤ f64Scaled (2 ^ 53 - 1) 53) ∧
  f64Scaled (2 ^ 53 - 1) 53 = 0x3FEFFFFFFFFFFFFF#64
end

