-- ==== Sys2Proof/Laws/Arith.lean ====
section
/-! SUPPORT. The geometric sums behind the period of the state advance (41_raw_output.md R128). -/

namespace Sys2Proof.Laws

/-- `1 + a + … + a^(n-1)`. -/
def geo (a : Nat) : Nat → Nat
  | 0 => 0
  | n + 1 => a * geo a n + 1

theorem geo_add (a m n : Nat) : geo a (m + n) = a ^ n * geo a m + geo a n := by
  induction n with
  | zero => simp [geo]
  | succ n ih => rw [← Nat.add_assoc]; simp only [geo, ih]; ring

theorem geo_mod_two {a : Nat} (ha : a % 2 = 1) (n : Nat) : geo a n % 2 = n % 2 := by
  induction n with
  | zero => rfl
  | succ n ih => rw [geo, Nat.add_mod, Nat.mul_mod, ha, ih]; omega

theorem geo_double {a : Nat} (ha : a % 2 = 1) (m : Nat) : geo a (2 * m) = 2 * (geo a m * ((a ^ m + 1) / 2)) := by
  have h : a ^ m + 1 = 2 * ((a ^ m + 1) / 2) := by
    have : a ^ m % 2 = 1 := by rw [Nat.pow_mod, ha]; simp
    omega
  rw [two_mul, geo_add]
  calc a ^ m * geo a m + geo a m = geo a m * (a ^ m + 1) := by ring
    _ = geo a m * (2 * ((a ^ m + 1) / 2)) := by rw [← h]
    _ = _ := by ring

/-- With a ratio that leaves 1 mod 4, a power of two divides the sum exactly when it divides the number of terms. -/
theorem two_pow_dvd_geo {a : Nat} (ha : a % 4 = 1) (k : Nat) : ∀ n, 2 ^ k ∣ geo a n ↔ 2 ^ k ∣ n := by
  have ha2 : a % 2 = 1 := by omega
  induction k with
  | zero => simp
  | succ k ih =>
    intro n
    rcases Nat.even_or_odd' n with ⟨m, rfl | rfl⟩
    · have hodd : Nat.Coprime (2 ^ k) ((a ^ m + 1) / 2) := by
        have : a ^ m % 4 = 1 := by rw [Nat.pow_mod, ha]; simp
        exact Nat.Coprime.pow_left _ (Nat.coprime_two_left.2 (Nat.odd_iff.2 (by omega)))
      rw [geo_double ha2, pow_succ', Nat.mul_dvd_mul_iff_left (by norm_num), Nat.mul_dvd_mul_iff_left (by norm_num),
        ← ih m]
      exact ⟨hodd.dvd_of_dvd_mul_right, fun h => h.mul_right _⟩
    · have hno {x : Nat} (hx : x % 2 = 1) : ¬ 2 ^ (k + 1) ∣ x := fun h => by
        have : 2 ∣ x := (dvd_pow_self 2 k.succ_ne_zero).trans h
        omega
      exact iff_of_false (hno (by rw [geo_mod_two ha2]; omega)) (hno (by omega))

end Sys2Proof.Laws
end

