-- ==== Sys2Proof/Laws/Codec.lean ====
section
/-! SUPPORT. The fields of a command word: what each reads back, and that they make up the whole word (R66, R67). -/

namespace Sys2Proof

theorem cmdWord_op (op : U4) (a b : U64) : CmdWord.op (cmdWord op a b) = op := by
  show BitVec.extractLsb' 128 4 (op ++ a ++ b : BitVec (4 + 64 + 64)) = op
  ext i hi
  simp only [BitVec.getElem_extractLsb', BitVec.getLsbD_append]
  simp [hi, show ¬ 128 + i < 64 by omega, show ¬ 128 + i - 64 < 64 by omega, show 128 + i - 64 - 64 = i by omega]

theorem cmdWord_a (op : U4) (a b : U64) : CmdWord.a (cmdWord op a b) = a := by
  show BitVec.extractLsb' 64 64 (op ++ a ++ b : BitVec (4 + 64 + 64)) = a
  ext i hi
  simp only [BitVec.getElem_extractLsb', BitVec.getLsbD_append]
  simp [hi]

theorem cmdWord_b (op : U4) (a b : U64) : CmdWord.b (cmdWord op a b) = b := by
  show BitVec.extractLsb' 0 64 (op ++ a ++ b : BitVec (4 + 64 + 64)) = b
  ext i hi
  simp only [BitVec.getElem_extractLsb', BitVec.getLsbD_append]
  simp [hi]

theorem cmdWord_fields (w : CmdWord) : cmdWord (CmdWord.op w) (CmdWord.a w) (CmdWord.b w) = w := by
  show (BitVec.extractLsb' 128 4 w ++ BitVec.extractLsb' 64 64 w ++ BitVec.extractLsb' 0 64 w : BitVec (4 + 64 + 64)) = w
  ext i hi
  simp only [BitVec.getElem_append, BitVec.getElem_extractLsb']
  split
  · rw [Nat.zero_add]; exact BitVec.getLsbD_eq_getElem _
  · split <;> rw [← BitVec.getLsbD_eq_getElem] <;> exact congrArg w.getLsbD (by omega)

/-- The decoder reads the three fields and nothing else. -/
theorem decode_cmdWord (op : U4) (a b : U64) : decode (cmdWord op a b) = decodePorts op a b := by
  rw [decode, cmdWord_op, cmdWord_a, cmdWord_b]

/-- NEXT_BOUNDED's bound is the low half of its operand. -/
theorem append_low (high low : U32) : (high ++ low : BitVec (32 + 32)).extractLsb' 0 32 = low := by
  ext i hi
  simp only [BitVec.getElem_extractLsb', BitVec.getLsbD_append]
  simp [hi]

theorem append_high (high low : U32) : (high ++ low : BitVec (32 + 32)).extractLsb' 32 32 = high := by
  ext i hi
  simp only [BitVec.getElem_extractLsb', BitVec.getLsbD_append]
  simp [hi]

theorem halves_append (a : U64) : (a.extractLsb' 32 32 ++ a.extractLsb' 0 32 : BitVec (32 + 32)) = a := by
  ext i hi
  simp only [BitVec.getElem_append, BitVec.getElem_extractLsb']
  split
  · rw [Nat.zero_add]; exact BitVec.getLsbD_eq_getElem _
  · rw [← BitVec.getLsbD_eq_getElem]; exact congrArg a.getLsbD (by omega)

end Sys2Proof
end

