-- ==== Sys2Proof/Laws/State.lean ====
section
/-! SUPPORT. One lemma per field per update of the state, each true by rfl. -/

namespace Sys2Proof.Machine

/-! The draw's update (R124). -/

@[simp] theorem State.advance_state (s : State) : s.advance.state = lcgStep s.state s.increment := rfl
@[simp] theorem State.advance_increment (s : State) : s.advance.increment = s.increment := rfl
@[simp] theorem State.advance_seeded (s : State) : s.advance.seeded = s.seeded := rfl
@[simp] theorem State.advance_faultSticky (s : State) : s.advance.faultSticky = s.faultSticky := rfl
@[simp] theorem State.advance_phase (s : State) : s.advance.phase = s.phase := rfl
@[simp] theorem State.advance_opQ (s : State) : s.advance.opQ = s.opQ := rfl
@[simp] theorem State.advance_aQ (s : State) : s.advance.aQ = s.aQ := rfl
@[simp] theorem State.advance_bQ (s : State) : s.advance.bQ = s.bQ := rfl
@[simp] theorem State.advance_thrQ (s : State) : s.advance.thrQ = s.thrQ := rfl
@[simp] theorem State.advance_rQ (s : State) : s.advance.rQ = s.rQ := rfl
@[simp] theorem State.advance_dq (s : State) : s.advance.dq = s.dq := rfl
@[simp] theorem State.advance_dcnt (s : State) : s.advance.dcnt = s.dcnt := rfl
@[simp] theorem State.advance_rspDataQ (s : State) : s.advance.rspDataQ = s.rspDataQ := rfl
@[simp] theorem State.advance_rspErrQ (s : State) : s.advance.rspErrQ = s.rspErrQ := rfl
@[simp] theorem State.advance_inputs (s : State) : s.advance.inputs = s.inputs := rfl
@[simp] theorem State.advance_params (s : State) : s.advance.params = s.params := rfl
@[simp] theorem State.advance_pace (s : State) : s.advance.pace = s.pace := rfl
@[simp] theorem State.advance_resets (s : State) : s.advance.resets = s.resets := rfl

/-! The success response (R83). -/

@[simp] theorem State.respond_state (s : State) (d : U64) : (s.respond d).state = s.state := rfl
@[simp] theorem State.respond_increment (s : State) (d : U64) : (s.respond d).increment = s.increment := rfl
@[simp] theorem State.respond_seeded (s : State) (d : U64) : (s.respond d).seeded = s.seeded := rfl
@[simp] theorem State.respond_faultSticky (s : State) (d : U64) : (s.respond d).faultSticky = s.faultSticky := rfl
@[simp] theorem State.respond_phase (s : State) (d : U64) : (s.respond d).phase = .resp := rfl
@[simp] theorem State.respond_opQ (s : State) (d : U64) : (s.respond d).opQ = s.opQ := rfl
@[simp] theorem State.respond_aQ (s : State) (d : U64) : (s.respond d).aQ = s.aQ := rfl
@[simp] theorem State.respond_bQ (s : State) (d : U64) : (s.respond d).bQ = s.bQ := rfl
@[simp] theorem State.respond_thrQ (s : State) (d : U64) : (s.respond d).thrQ = s.thrQ := rfl
@[simp] theorem State.respond_rQ (s : State) (d : U64) : (s.respond d).rQ = s.rQ := rfl
@[simp] theorem State.respond_dq (s : State) (d : U64) : (s.respond d).dq = s.dq := rfl
@[simp] theorem State.respond_dcnt (s : State) (d : U64) : (s.respond d).dcnt = s.dcnt := rfl
@[simp] theorem State.respond_rspDataQ (s : State) (d : U64) : (s.respond d).rspDataQ = d := rfl
@[simp] theorem State.respond_rspErrQ (s : State) (d : U64) : (s.respond d).rspErrQ = 0#2 := rfl
@[simp] theorem State.respond_inputs (s : State) (d : U64) : (s.respond d).inputs = s.inputs := rfl
@[simp] theorem State.respond_params (s : State) (d : U64) : (s.respond d).params = s.params := rfl
@[simp] theorem State.respond_pace (s : State) (d : U64) : (s.respond d).pace = s.pace := rfl
@[simp] theorem State.respond_resets (s : State) (d : U64) : (s.respond d).resets = s.resets := rfl

/-! The error response (R191). -/

@[simp] theorem State.raise_state (s : State) (e : Error) : (s.raise e).state = s.state := rfl
@[simp] theorem State.raise_increment (s : State) (e : Error) : (s.raise e).increment = s.increment := rfl
@[simp] theorem State.raise_seeded (s : State) (e : Error) : (s.raise e).seeded = s.seeded := rfl
@[simp] theorem State.raise_faultSticky (s : State) (e : Error) : (s.raise e).faultSticky = true := rfl
@[simp] theorem State.raise_phase (s : State) (e : Error) : (s.raise e).phase = .resp := rfl
@[simp] theorem State.raise_opQ (s : State) (e : Error) : (s.raise e).opQ = s.opQ := rfl
@[simp] theorem State.raise_aQ (s : State) (e : Error) : (s.raise e).aQ = s.aQ := rfl
@[simp] theorem State.raise_bQ (s : State) (e : Error) : (s.raise e).bQ = s.bQ := rfl
@[simp] theorem State.raise_thrQ (s : State) (e : Error) : (s.raise e).thrQ = s.thrQ := rfl
@[simp] theorem State.raise_rQ (s : State) (e : Error) : (s.raise e).rQ = s.rQ := rfl
@[simp] theorem State.raise_dq (s : State) (e : Error) : (s.raise e).dq = s.dq := rfl
@[simp] theorem State.raise_dcnt (s : State) (e : Error) : (s.raise e).dcnt = s.dcnt := rfl
@[simp] theorem State.raise_rspDataQ (s : State) (e : Error) : (s.raise e).rspDataQ = 0#64 := rfl
@[simp] theorem State.raise_rspErrQ (s : State) (e : Error) : (s.raise e).rspErrQ = errorCode e := rfl
@[simp] theorem State.raise_inputs (s : State) (e : Error) : (s.raise e).inputs = s.inputs := rfl
@[simp] theorem State.raise_params (s : State) (e : Error) : (s.raise e).params = s.params := rfl
@[simp] theorem State.raise_pace (s : State) (e : Error) : (s.raise e).pace = s.pace := rfl
@[simp] theorem State.raise_resets (s : State) (e : Error) : (s.raise e).resets = s.resets := rfl

/-! The response taken (R84). -/

@[simp] theorem State.take_state (s : State) : s.take.state = s.state := rfl
@[simp] theorem State.take_increment (s : State) : s.take.increment = s.increment := rfl
@[simp] theorem State.take_seeded (s : State) : s.take.seeded = s.seeded := rfl
@[simp] theorem State.take_faultSticky (s : State) : s.take.faultSticky = s.faultSticky := rfl
@[simp] theorem State.take_phase (s : State) : s.take.phase = .idle := rfl
@[simp] theorem State.take_opQ (s : State) : s.take.opQ = s.opQ := rfl
@[simp] theorem State.take_aQ (s : State) : s.take.aQ = s.aQ := rfl
@[simp] theorem State.take_bQ (s : State) : s.take.bQ = s.bQ := rfl
@[simp] theorem State.take_thrQ (s : State) : s.take.thrQ = s.thrQ := rfl
@[simp] theorem State.take_rQ (s : State) : s.take.rQ = s.rQ := rfl
@[simp] theorem State.take_dq (s : State) : s.take.dq = s.dq := rfl
@[simp] theorem State.take_dcnt (s : State) : s.take.dcnt = s.dcnt := rfl
@[simp] theorem State.take_rspDataQ (s : State) : s.take.rspDataQ = s.rspDataQ := rfl
@[simp] theorem State.take_rspErrQ (s : State) : s.take.rspErrQ = s.rspErrQ := rfl
@[simp] theorem State.take_inputs (s : State) : s.take.inputs = s.inputs := rfl
@[simp] theorem State.take_params (s : State) : s.take.params = s.params := rfl
@[simp] theorem State.take_pace (s : State) : s.take.pace = s.pace := rfl
@[simp] theorem State.take_resets (s : State) : s.take.resets = s.resets := rfl

/-! The accept edge's latching (R80). -/

@[simp] theorem State.latch_state (s : State) (op : U4) (a b : U64) : (s.latch op a b).state = s.state := rfl
@[simp] theorem State.latch_increment (s : State) (op : U4) (a b : U64) : (s.latch op a b).increment = s.increment := rfl
@[simp] theorem State.latch_seeded (s : State) (op : U4) (a b : U64) : (s.latch op a b).seeded = s.seeded := rfl
@[simp] theorem State.latch_faultSticky (s : State) (op : U4) (a b : U64) : (s.latch op a b).faultSticky = s.faultSticky := rfl
@[simp] theorem State.latch_phase (s : State) (op : U4) (a b : U64) : (s.latch op a b).phase = s.phase := rfl
@[simp] theorem State.latch_opQ (s : State) (op : U4) (a b : U64) : (s.latch op a b).opQ = op := rfl
@[simp] theorem State.latch_aQ (s : State) (op : U4) (a b : U64) : (s.latch op a b).aQ = operandLatchA s.pins op a := rfl
@[simp] theorem State.latch_bQ (s : State) (op : U4) (a b : U64) : (s.latch op a b).bQ = operandLatchB s.pins op b := rfl
@[simp] theorem State.latch_thrQ (s : State) (op : U4) (a b : U64) : (s.latch op a b).thrQ = s.thrQ := rfl
@[simp] theorem State.latch_rQ (s : State) (op : U4) (a b : U64) : (s.latch op a b).rQ = s.rQ := rfl
@[simp] theorem State.latch_dq (s : State) (op : U4) (a b : U64) : (s.latch op a b).dq = s.dq := rfl
@[simp] theorem State.latch_dcnt (s : State) (op : U4) (a b : U64) : (s.latch op a b).dcnt = s.dcnt := rfl
@[simp] theorem State.latch_rspDataQ (s : State) (op : U4) (a b : U64) : (s.latch op a b).rspDataQ = s.rspDataQ := rfl
@[simp] theorem State.latch_rspErrQ (s : State) (op : U4) (a b : U64) : (s.latch op a b).rspErrQ = s.rspErrQ := rfl
@[simp] theorem State.latch_inputs (s : State) (op : U4) (a b : U64) : (s.latch op a b).inputs = s.inputs := rfl
@[simp] theorem State.latch_params (s : State) (op : U4) (a b : U64) : (s.latch op a b).params = s.params := rfl
@[simp] theorem State.latch_pace (s : State) (op : U4) (a b : U64) : (s.latch op a b).pace = s.pace := rfl
@[simp] theorem State.latch_resets (s : State) (op : U4) (a b : U64) : (s.latch op a b).resets = s.resets := rfl

/-! The host's move (R8). -/

@[simp] theorem State.hostMoves_state (s : State) : s.hostMoves.state = s.state := rfl
@[simp] theorem State.hostMoves_increment (s : State) : s.hostMoves.increment = s.increment := rfl
@[simp] theorem State.hostMoves_seeded (s : State) : s.hostMoves.seeded = s.seeded := rfl
@[simp] theorem State.hostMoves_faultSticky (s : State) : s.hostMoves.faultSticky = s.faultSticky := rfl
@[simp] theorem State.hostMoves_phase (s : State) : s.hostMoves.phase = s.phase := rfl
@[simp] theorem State.hostMoves_opQ (s : State) : s.hostMoves.opQ = s.opQ := rfl
@[simp] theorem State.hostMoves_aQ (s : State) : s.hostMoves.aQ = s.aQ := rfl
@[simp] theorem State.hostMoves_bQ (s : State) : s.hostMoves.bQ = s.bQ := rfl
@[simp] theorem State.hostMoves_thrQ (s : State) : s.hostMoves.thrQ = s.thrQ := rfl
@[simp] theorem State.hostMoves_rQ (s : State) : s.hostMoves.rQ = s.rQ := rfl
@[simp] theorem State.hostMoves_dq (s : State) : s.hostMoves.dq = s.dq := rfl
@[simp] theorem State.hostMoves_dcnt (s : State) : s.hostMoves.dcnt = s.dcnt := rfl
@[simp] theorem State.hostMoves_rspDataQ (s : State) : s.hostMoves.rspDataQ = s.rspDataQ := rfl
@[simp] theorem State.hostMoves_rspErrQ (s : State) : s.hostMoves.rspErrQ = s.rspErrQ := rfl
@[simp] theorem State.hostMoves_inputs (s : State) : s.hostMoves.inputs = s.inputs.tail := rfl
@[simp] theorem State.hostMoves_params (s : State) : s.hostMoves.params = s.params := rfl
@[simp] theorem State.hostMoves_pace (s : State) : s.hostMoves.pace = s.pace := rfl
@[simp] theorem State.hostMoves_resets (s : State) : s.hostMoves.resets = s.resets := rfl

/-! The reset edge (R220): what it fixes and what it keeps. -/

@[simp] theorem State.resetEdge_seeded (s : State) : s.resetEdge.seeded = false := rfl
@[simp] theorem State.resetEdge_faultSticky (s : State) : s.resetEdge.faultSticky = false := rfl
@[simp] theorem State.resetEdge_phase (s : State) : s.resetEdge.phase = .idle := rfl
@[simp] theorem State.resetEdge_dq (s : State) : s.resetEdge.dq = freeDraws s.params.d2.ndraws s.resets := rfl
@[simp] theorem State.resetEdge_inputs (s : State) : s.resetEdge.inputs = s.inputs := rfl
@[simp] theorem State.resetEdge_params (s : State) : s.resetEdge.params = s.params := rfl
@[simp] theorem State.resetEdge_pace (s : State) : s.resetEdge.pace = s.pace := rfl
@[simp] theorem State.resetEdge_resets (s : State) : s.resetEdge.resets = s.resets + 1 := rfl

/-! The sampler's draw (R144). -/

@[simp] theorem State.keepDraw_state (s : State) : s.keepDraw.state = lcgStep s.state s.increment := rfl
@[simp] theorem State.keepDraw_increment (s : State) : s.keepDraw.increment = s.increment := rfl
@[simp] theorem State.keepDraw_seeded (s : State) : s.keepDraw.seeded = s.seeded := rfl
@[simp] theorem State.keepDraw_faultSticky (s : State) : s.keepDraw.faultSticky = s.faultSticky := rfl
@[simp] theorem State.keepDraw_phase (s : State) : s.keepDraw.phase = s.phase := rfl
@[simp] theorem State.keepDraw_opQ (s : State) : s.keepDraw.opQ = s.opQ := rfl
@[simp] theorem State.keepDraw_aQ (s : State) : s.keepDraw.aQ = s.aQ := rfl
@[simp] theorem State.keepDraw_bQ (s : State) : s.keepDraw.bQ = s.bQ := rfl
@[simp] theorem State.keepDraw_thrQ (s : State) : s.keepDraw.thrQ = s.thrQ := rfl
@[simp] theorem State.keepDraw_rQ (s : State) : s.keepDraw.rQ = s.output := rfl
@[simp] theorem State.keepDraw_dq (s : State) : s.keepDraw.dq = s.dq := rfl
@[simp] theorem State.keepDraw_dcnt (s : State) : s.keepDraw.dcnt = s.dcnt := rfl
@[simp] theorem State.keepDraw_rspDataQ (s : State) : s.keepDraw.rspDataQ = s.rspDataQ := rfl
@[simp] theorem State.keepDraw_rspErrQ (s : State) : s.keepDraw.rspErrQ = s.rspErrQ := rfl
@[simp] theorem State.keepDraw_inputs (s : State) : s.keepDraw.inputs = s.inputs := rfl
@[simp] theorem State.keepDraw_params (s : State) : s.keepDraw.params = s.params := rfl
@[simp] theorem State.keepDraw_pace (s : State) : s.keepDraw.pace = s.pace := rfl
@[simp] theorem State.keepDraw_resets (s : State) : s.keepDraw.resets = s.resets := rfl

/-! The sampler's threshold (R143). -/

@[simp] theorem State.keepThreshold_state (s : State) : s.keepThreshold.state = s.state := rfl
@[simp] theorem State.keepThreshold_increment (s : State) : s.keepThreshold.increment = s.increment := rfl
@[simp] theorem State.keepThreshold_seeded (s : State) : s.keepThreshold.seeded = s.seeded := rfl
@[simp] theorem State.keepThreshold_faultSticky (s : State) : s.keepThreshold.faultSticky = s.faultSticky := rfl
@[simp] theorem State.keepThreshold_phase (s : State) : s.keepThreshold.phase = s.phase := rfl
@[simp] theorem State.keepThreshold_opQ (s : State) : s.keepThreshold.opQ = s.opQ := rfl
@[simp] theorem State.keepThreshold_aQ (s : State) : s.keepThreshold.aQ = s.aQ := rfl
@[simp] theorem State.keepThreshold_bQ (s : State) : s.keepThreshold.bQ = s.bQ := rfl
@[simp] theorem State.keepThreshold_thrQ (s : State) : s.keepThreshold.thrQ = threshold s.bound := rfl
@[simp] theorem State.keepThreshold_rQ (s : State) : s.keepThreshold.rQ = s.rQ := rfl
@[simp] theorem State.keepThreshold_dq (s : State) : s.keepThreshold.dq = s.dq := rfl
@[simp] theorem State.keepThreshold_dcnt (s : State) : s.keepThreshold.dcnt = s.dcnt := rfl
@[simp] theorem State.keepThreshold_rspDataQ (s : State) : s.keepThreshold.rspDataQ = s.rspDataQ := rfl
@[simp] theorem State.keepThreshold_rspErrQ (s : State) : s.keepThreshold.rspErrQ = s.rspErrQ := rfl
@[simp] theorem State.keepThreshold_inputs (s : State) : s.keepThreshold.inputs = s.inputs := rfl
@[simp] theorem State.keepThreshold_params (s : State) : s.keepThreshold.params = s.params := rfl
@[simp] theorem State.keepThreshold_pace (s : State) : s.keepThreshold.pace = s.pace := rfl
@[simp] theorem State.keepThreshold_resets (s : State) : s.keepThreshold.resets = s.resets := rfl

/-! NEXT_DOUBLE2's draw (R164). -/

@[simp] theorem State.storeDraw_state (s : State) : s.storeDraw.state = lcgStep s.state s.increment := rfl
@[simp] theorem State.storeDraw_increment (s : State) : s.storeDraw.increment = s.increment := rfl
@[simp] theorem State.storeDraw_seeded (s : State) : s.storeDraw.seeded = s.seeded := rfl
@[simp] theorem State.storeDraw_faultSticky (s : State) : s.storeDraw.faultSticky = s.faultSticky := rfl
@[simp] theorem State.storeDraw_phase (s : State) : s.storeDraw.phase = s.phase := rfl
@[simp] theorem State.storeDraw_opQ (s : State) : s.storeDraw.opQ = s.opQ := rfl
@[simp] theorem State.storeDraw_aQ (s : State) : s.storeDraw.aQ = s.aQ := rfl
@[simp] theorem State.storeDraw_bQ (s : State) : s.storeDraw.bQ = s.bQ := rfl
@[simp] theorem State.storeDraw_thrQ (s : State) : s.storeDraw.thrQ = s.thrQ := rfl
@[simp] theorem State.storeDraw_rQ (s : State) : s.storeDraw.rQ = s.rQ := rfl
@[simp] theorem State.storeDraw_dq (s : State) : s.storeDraw.dq = s.dq.set s.dcnt s.output := rfl
@[simp] theorem State.storeDraw_dcnt (s : State) : s.storeDraw.dcnt = s.dcnt := rfl
@[simp] theorem State.storeDraw_rspDataQ (s : State) : s.storeDraw.rspDataQ = s.rspDataQ := rfl
@[simp] theorem State.storeDraw_rspErrQ (s : State) : s.storeDraw.rspErrQ = s.rspErrQ := rfl
@[simp] theorem State.storeDraw_inputs (s : State) : s.storeDraw.inputs = s.inputs := rfl
@[simp] theorem State.storeDraw_params (s : State) : s.storeDraw.params = s.params := rfl
@[simp] theorem State.storeDraw_pace (s : State) : s.storeDraw.pace = s.pace := rfl
@[simp] theorem State.storeDraw_resets (s : State) : s.storeDraw.resets = s.resets := rfl

/-! The operands' and the output's view of an update. -/

@[simp] theorem State.advance_pins (s : State) : s.advance.pins = s.pins := rfl
@[simp] theorem State.latch_pins (s : State) (op : U4) (a b : U64) : (s.latch op a b).pins = s.pins := rfl
@[simp] theorem State.advance_bound (s : State) : s.advance.bound = s.bound := rfl
@[simp] theorem State.keepDraw_bound (s : State) : s.keepDraw.bound = s.bound := rfl
@[simp] theorem State.keepThreshold_bound (s : State) : s.keepThreshold.bound = s.bound := rfl
@[simp] theorem State.latch_output (s : State) (op : U4) (a b : U64) : (s.latch op a b).output = s.output := rfl

end Sys2Proof.Machine
end

