-- ==== Sys2Proof/Laws/Ops.lean ====
section
/-! SUPPORT. What each shared operation can do, said once: the dispatch checks, a command run whole, the draws, the
sampler's loop, the micro-steps and the step. -/

namespace Sys2Proof.Machine

/-! ### The host's port values -/

@[simp] theorem State.driving_state (s : State) (ps : List Inputs) : (s.driving ps).state = s.state := rfl
@[simp] theorem State.driving_increment (s : State) (ps : List Inputs) : (s.driving ps).increment = s.increment := rfl
@[simp] theorem State.driving_seeded (s : State) (ps : List Inputs) : (s.driving ps).seeded = s.seeded := rfl
@[simp] theorem State.driving_faultSticky (s : State) (ps : List Inputs) : (s.driving ps).faultSticky = s.faultSticky := rfl
@[simp] theorem State.driving_phase (s : State) (ps : List Inputs) : (s.driving ps).phase = s.phase := rfl
@[simp] theorem State.driving_opQ (s : State) (ps : List Inputs) : (s.driving ps).opQ = s.opQ := rfl
@[simp] theorem State.driving_aQ (s : State) (ps : List Inputs) : (s.driving ps).aQ = s.aQ := rfl
@[simp] theorem State.driving_bQ (s : State) (ps : List Inputs) : (s.driving ps).bQ = s.bQ := rfl
@[simp] theorem State.driving_thrQ (s : State) (ps : List Inputs) : (s.driving ps).thrQ = s.thrQ := rfl
@[simp] theorem State.driving_rQ (s : State) (ps : List Inputs) : (s.driving ps).rQ = s.rQ := rfl
@[simp] theorem State.driving_dq (s : State) (ps : List Inputs) : (s.driving ps).dq = s.dq := rfl
@[simp] theorem State.driving_dcnt (s : State) (ps : List Inputs) : (s.driving ps).dcnt = s.dcnt := rfl
@[simp] theorem State.driving_rspDataQ (s : State) (ps : List Inputs) : (s.driving ps).rspDataQ = s.rspDataQ := rfl
@[simp] theorem State.driving_rspErrQ (s : State) (ps : List Inputs) : (s.driving ps).rspErrQ = s.rspErrQ := rfl
@[simp] theorem State.driving_inputs (s : State) (ps : List Inputs) : (s.driving ps).inputs = ps := rfl
@[simp] theorem State.driving_params (s : State) (ps : List Inputs) : (s.driving ps).params = s.params := rfl
@[simp] theorem State.driving_pace (s : State) (ps : List Inputs) : (s.driving ps).pace = s.pace := rfl
@[simp] theorem State.driving_resets (s : State) (ps : List Inputs) : (s.driving ps).resets = s.resets := rfl
@[simp] theorem State.driving_pins (s : State) (p : Inputs) (ps : List Inputs) : (s.driving (p :: ps)).pins = p := rfl

/-! ### Dispatch -/

theorem dispatchError_illegal {op : U4} {s : State} (h : reserved s.params op = true) :
    dispatchError op s = some .illegalCommand := by
  simp [dispatchError, h]

theorem dispatchError_unseeded {op : U4} {s : State} (h : reserved s.params op = false) (hn : needsSeed op = true)
    (hs : s.seeded = false) : dispatchError op s = some .unseeded := by
  simp [dispatchError, h, hn, hs]

theorem dispatchError_seeded {op : U4} {s : State} (h : reserved s.params op = false) (hs : s.seeded = true) :
    dispatchError op s = none := by
  simp [dispatchError, h, hs]

theorem dispatchError_free {op : U4} {s : State} (h : reserved s.params op = false) (hn : needsSeed op = false) :
    dispatchError op s = none := by
  simp [dispatchError, h, hn]

theorem dispatchError_none {op : U4} {s : State} (h : dispatchError op s = none) :
    reserved s.params op = false ∧ (needsSeed op = true → s.seeded = true) := by
  unfold dispatchError at h
  split at h
  · simp at h
  · split at h <;> simp_all

/-- The checks read the parameters and `seeded` only. -/
theorem dispatchError_congr {op : U4} {s t : State} (hp : s.params = t.params) (hs : s.seeded = t.seeded) :
    dispatchError op s = dispatchError op t := by
  simp [dispatchError, hp, hs]

/-- A command's opcode is reserved exactly when its option is absent. -/
theorem reserved_opcode (p : Params) (i : Instr) : reserved p i.opcode = !i.wellFormed p := by
  cases i <;> cases h : p.hasFpconv <;> simp [reserved, Instr.opcode, Instr.wellFormed, h]

/-! ### A command run whole -/

variable {op : U4} {a b : U64} {run : State → Result} {s t : State}

theorem command_busy (h : s.phase ≠ .idle) : command op a b run s = .next s := by
  simp [command, h]

theorem command_error {e : Error} (h : s.phase = .idle) (he : dispatchError op s = some e) :
    command op a b run s = .next ((s.latch op a b).raise e) := by
  simp [command, h, he]

theorem command_runs (h : s.phase = .idle) (he : dispatchError op s = none) :
    command op a b run s = run (s.latch op a b) := by
  simp [command, h, he]

/-- All that a command run whole can do: not accepted, an error at dispatch, or its own effect. -/
theorem command_cases (run : State → Result) (op : U4) (a b : U64) (s : State) :
    (s.phase ≠ .idle ∧ command op a b run s = .next s) ∨
    (s.phase = .idle ∧ ∃ e, dispatchError op s = some e ∧ command op a b run s = .next ((s.latch op a b).raise e)) ∨
    (s.phase = .idle ∧ dispatchError op s = none ∧ command op a b run s = run (s.latch op a b)) := by
  by_cases h : s.phase = .idle
  · cases he : dispatchError op s with
    | none => exact .inr (.inr ⟨h, rfl, command_runs h he⟩)
    | some e => exact .inr (.inl ⟨h, e, rfl, command_error h he⟩)
  · exact .inl ⟨h, command_busy h⟩

/-! Each meaning is a command run whole. -/

theorem exec_seed (s : State) : exec (.seed a b) s = command 0x0#4 a b runSeed s := rfl
theorem exec_autoseed (s : State) : exec (.autoseed a b) s = command 0x1#4 a b runSeed s := rfl
theorem exec_next (s : State) : exec (.next a b) s = command 0x2#4 a b runNext s := rfl
theorem exec_nextBounded (high bound : U32) (s : State) :
    exec (.nextBounded high bound b) s = command 0x3#4 (high ++ bound) b runBounded s := rfl
theorem exec_nextDouble (s : State) : exec (.nextDouble a b) s = command 0x4#4 a b runDouble s := rfl
theorem exec_nextDouble2 (s : State) : exec (.nextDouble2 a b) s = command 0x5#4 a b runDouble2 s := rfl
theorem exec_rdState (s : State) : exec (.rdState a b) s = command 0x6#4 a b runRdState s := rfl
theorem exec_rdInc (s : State) : exec (.rdInc a b) s = command 0x7#4 a b runRdInc s := rfl
theorem exec_restore (s : State) : exec (.restore a b) s = command 0x8#4 a b runRestore s := rfl

/-- What a command does once accepted and past the dispatch checks. -/
def effectOf : Instr → State → Result
  | .seed _ _ | .autoseed _ _ => runSeed
  | .next _ _ => runNext
  | .nextBounded _ _ _ => runBounded
  | .nextDouble _ _ => runDouble
  | .nextDouble2 _ _ => runDouble2
  | .rdState _ _ => runRdState
  | .rdInc _ _ => runRdInc
  | .restore _ _ => runRestore

theorem exec_eq (i : Instr) (s : State) :
    exec i s = command i.opcode i.operandA i.operandB (effectOf i) s := by
  cases i <;> rfl

/-! ### Draws -/

theorem stateAfter_add (inc : U64) (m n : Nat) (s : U64) :
    stateAfter inc (m + n) s = stateAfter inc n (stateAfter inc m s) := by
  induction m generalizing s with
  | zero => simp [stateAfter]
  | succ m ih => rw [Nat.add_right_comm]; exact ih _

theorem stateAfter_succ (inc : U64) (n : Nat) (s : U64) :
    stateAfter inc (n + 1) s = lcgStep (stateAfter inc n s) inc := stateAfter_add inc n 1 s

theorem drawAt_succ (inc s : U64) (n : Nat) : drawAt inc s (n + 1) = drawAt inc (lcgStep s inc) n := rfl

theorem State.advances_eq (n : Nat) (s : State) :
    s.advances n = { s with state := stateAfter s.increment n s.state } := by
  induction n generalizing s with
  | zero => rfl
  | succ n ih => simp only [State.advances, ih]; rfl

theorem State.draws_eq (n : Nat) (s : State) :
    s.draws n = (List.range n).map (drawAt s.increment s.state) := by
  induction n generalizing s with
  | zero => rfl
  | succ n ih =>
    rw [List.range_succ_eq_map, State.draws, ih, List.map_cons, List.map_map]
    rfl

/-- The state in which the loop has made `n + 1` draws, the last of them in `r_q`. -/
def State.sampled (s : State) (n : Nat) : State :=
  { s with state := stateAfter s.increment (n + 1) s.state, rQ := drawAt s.increment s.state n }

theorem State.keepDraw_sampled (s : State) (n : Nat) : s.keepDraw.sampled n = s.sampled (n + 1) := rfl

theorem State.keepDraw_eq (s : State) : s.keepDraw = s.sampled 0 := rfl

theorem State.keepDraw_accepts (s : State) : s.keepDraw.accepts ↔ s.thrQ ≤ drawAt s.increment s.state 0 := Iff.rfl

/-- The loop ends after the first draw not below the threshold. -/
theorem sampler_accepts (n : Nat) {fuel : Nat} (hn : n < fuel) (s : State)
    (hr : ∀ j, j < n → drawAt s.increment s.state j < s.thrQ) (ha : s.thrQ ≤ drawAt s.increment s.state n) :
    sampler fuel s = .next (answerDraw (s.sampled n)) := by
  induction n generalizing fuel s with
  | zero =>
    obtain ⟨k, rfl⟩ := Nat.exists_eq_succ_of_ne_zero (Nat.ne_of_gt hn)
    rw [sampler, if_pos (s.keepDraw_accepts.2 ha), s.keepDraw_eq]
  | succ n ih =>
    obtain ⟨k, rfl⟩ := Nat.exists_eq_succ_of_ne_zero (Nat.ne_of_gt (Nat.lt_of_le_of_lt (Nat.zero_le _) hn))
    have h0 := hr 0 (Nat.succ_pos _)
    rw [sampler, if_neg fun h => BitVec.not_le.2 h0 (s.keepDraw_accepts.1 h), ← s.keepDraw_sampled]
    exact ih (Nat.lt_of_succ_lt_succ hn) s.keepDraw (fun j hj => hr (j + 1) (Nat.succ_lt_succ hj)) ha

/-- The loop stops with the fault when all its draws are rejected. -/
theorem sampler_rejects (fuel : Nat) (s : State) (hr : ∀ j, j < fuel → drawAt s.increment s.state j < s.thrQ) :
    sampler fuel s = .fault .samplerEndless := by
  induction fuel generalizing s with
  | zero => rfl
  | succ fuel ih =>
    have h0 := hr 0 (Nat.succ_pos _)
    rw [sampler, if_neg fun h => BitVec.not_le.2 h0 (s.keepDraw_accepts.1 h)]
    exact ih s.keepDraw fun j hj => hr (j + 1) (Nat.succ_lt_succ hj)

/-- All that the loop can do. -/
theorem sampler_cases (fuel : Nat) (s : State) :
    (∃ n, n < fuel ∧ (∀ j, j < n → drawAt s.increment s.state j < s.thrQ) ∧ s.thrQ ≤ drawAt s.increment s.state n ∧
      sampler fuel s = .next (answerDraw (s.sampled n))) ∨
    ((∀ j, j < fuel → drawAt s.increment s.state j < s.thrQ) ∧ sampler fuel s = .fault .samplerEndless) := by
  by_cases h : ∃ n, n < fuel ∧ s.thrQ ≤ drawAt s.increment s.state n
  · classical
    have hf := Nat.find_spec h
    have hj : ∀ j, j < Nat.find h → drawAt s.increment s.state j < s.thrQ := fun j hj =>
      BitVec.not_le.1 fun hle => Nat.find_min h hj ⟨Nat.lt_trans hj hf.1, hle⟩
    exact .inl ⟨Nat.find h, hf.1, hj, hf.2, sampler_accepts _ hf.1 s hj hf.2⟩
  · have hr : ∀ j, j < fuel → drawAt s.increment s.state j < s.thrQ := fun j hj =>
      BitVec.not_le.1 fun hle => h ⟨j, hj, hle⟩
    exact .inr ⟨hr, sampler_rejects fuel s hr⟩

/-! ### The step -/

theorem step_next (h : portEdge exec s = .next t) : step s = .next t.hostMoves := by
  simp [step, h, thenHostMoves]

/-- A next state is the block's transition, then the host's move. -/
theorem step_eq_next (h : step s = .next t) : ∃ u, portEdge exec s = .next u ∧ t = u.hostMoves := by
  unfold step at h
  cases hp : portEdge exec s with
  | next u => rw [hp] at h; exact ⟨u, rfl, (Host.Outcome.next.inj h).symm⟩
  | fault r => rw [hp] at h; exact nomatch h
  | refused r => rw [hp] at h; exact nomatch h

/-- A run of one step more, of any machine. -/
theorem run_succ (M : Host.Core) (n : Nat) (s : M.State) :
    M.run (n + 1) s =
      (match M.step s with
      | .next t => M.run n t
      | .fault r => .fault r
      | .refused r => .refused r) := rfl

/-- A run that starts with a step to a next state goes on from there. -/
theorem run_of_step (n : Nat) (h : step s = .next t) :
    Host.Core.run Sys2Proof.core (n + 1) s = Host.Core.run Sys2Proof.core n t := by
  refine (run_succ Sys2Proof.core n s).trans ?_
  have h' : Sys2Proof.core.step s = .next t := h
  rw [h']

theorem portEdge_reset (h : s.pins.rst = true) : portEdge exec s = .next s.resetEdge := by
  simp [portEdge, h]

theorem portEdge_idle (hr : s.pins.rst = false) (hp : s.phase = .idle) (hv : s.pins.cmdValid = false) :
    portEdge exec s = .next s := by
  simp [portEdge, hr, hp, hv]

theorem portEdge_accept (hr : s.pins.rst = false) (hp : s.phase = .idle) (hv : s.pins.cmdValid = true) :
    portEdge exec s = acceptEdge exec s := by
  simp [portEdge, hr, hp, hv]

theorem portEdge_resp (hr : s.pins.rst = false) (hp : s.phase = .resp) :
    portEdge exec s = .next (if s.pins.rspReady then s.take else s) := by
  cases h : s.pins.rspReady <;> simp [portEdge, hr, hp, h]

theorem portEdge_micro (hr : s.pins.rst = false) (hi : s.phase ≠ .idle) (hp : s.phase ≠ .resp) :
    portEdge exec s = microStep s := by
  unfold portEdge
  rw [if_neg (by simp [hr])]
  split
  · contradiction
  · contradiction
  · rfl

/-- All that a transition can be. -/
theorem portEdge_cases (s : State) :
    (s.pins.rst = true ∧ portEdge exec s = .next s.resetEdge) ∨
    (s.pins.rst = false ∧ s.phase = .idle ∧ s.pins.cmdValid = false ∧ portEdge exec s = .next s) ∨
    (s.pins.rst = false ∧ s.phase = .idle ∧ s.pins.cmdValid = true ∧ portEdge exec s = acceptEdge exec s) ∨
    (s.pins.rst = false ∧ s.phase = .resp ∧ portEdge exec s = .next (if s.pins.rspReady then s.take else s)) ∨
    (s.pins.rst = false ∧ s.phase ≠ .idle ∧ s.phase ≠ .resp ∧ portEdge exec s = microStep s) := by
  cases hr : s.pins.rst with
  | true => exact .inl ⟨rfl, portEdge_reset hr⟩
  | false =>
    refine .inr ?_
    by_cases hi : s.phase = .idle
    · cases hv : s.pins.cmdValid with
      | false => exact .inl ⟨rfl, hi, rfl, portEdge_idle hr hi hv⟩
      | true => exact .inr (.inl ⟨rfl, hi, rfl, portEdge_accept hr hi hv⟩)
    · by_cases hp : s.phase = .resp
      · exact .inr (.inr (.inl ⟨rfl, hp, portEdge_resp hr hp⟩))
      · exact .inr (.inr (.inr ⟨rfl, hi, hp, portEdge_micro hr hi hp⟩))

end Sys2Proof.Machine
end

