-- ==== Sys2Proof/Laws/Commands.lean ====
section
/-! SUPPORT. All that a command's meaning can do, the fields a decoded command was read from, and that the host's later
port values change no effect. -/

namespace Sys2Proof.Machine

/-! ### Decoded commands -/

/-- A decoded command shows the three ports it was read from. -/
theorem decodePorts_fields {op : U4} {a b : U64} {i : Instr} (h : decodePorts op a b = .instr i) :
    op = i.opcode ∧ a = i.operandA ∧ b = i.operandB := by
  unfold decodePorts at h
  split at h <;> first | contradiction | (injection h with h; subst h)
  case h_4 => exact ⟨rfl, (halves_append a).symm, rfl⟩
  all_goals exact ⟨rfl, rfl, rfl⟩

/-- The word on the command port is decoded from its three fields. -/
theorem decode_word (p : Inputs) : decode p.word = decodePorts p.cmdOp p.cmdA p.cmdB := decode_cmdWord ..

/-! ### Effects -/

/-- All that exec can do: not accepted, an error at dispatch, or the command's own effect on the latched state. -/
theorem exec_cases (i : Instr) (s : State) :
    (s.phase ≠ .idle ∧ exec i s = .next s) ∨
    (s.phase = .idle ∧ ∃ e, dispatchError i.opcode s = some e ∧
      exec i s = .next ((s.latch i.opcode i.operandA i.operandB).raise e)) ∨
    (s.phase = .idle ∧ dispatchError i.opcode s = none ∧
      exec i s = effectOf i (s.latch i.opcode i.operandA i.operandB)) := by
  rw [exec_eq]; exact command_cases ..

/-- The five seeding steps at once: the first advance, from 0, leaves the increment (R101). -/
theorem runSeed_eq (s : State) : runSeed s = .next { s with
    state := mult * (oddIncrement s.bQ + s.aQ) + oddIncrement s.bQ, increment := oddIncrement s.bQ, seeded := true,
    rspDataQ := 0#64, rspErrQ := 0#2, phase := .resp } := by
  have h (inc : U64) : lcgStep 0#64 inc = inc := by simp [lcgStep]
  simp only [runSeed, State.advance, State.respond, h]
  rfl

/-- All that NEXT_BOUNDED does past dispatch: BoundZero, the first accepted draw, or the fault. -/
theorem runBounded_cases (s : State) :
    (s.bound = 0#32 ∧ runBounded s = .next (s.raise .boundZero)) ∨
    (s.bound ≠ 0#32 ∧ ∃ n, n < samplerFuel ∧ (∀ j, j < n → drawAt s.increment s.state j < threshold s.bound) ∧
      threshold s.bound ≤ drawAt s.increment s.state n ∧
      runBounded s = .next (answerDraw (s.keepThreshold.sampled n))) ∨
    (s.bound ≠ 0#32 ∧ (∀ j, j < samplerFuel → drawAt s.increment s.state j < threshold s.bound) ∧
      runBounded s = .fault .samplerEndless) := by
  by_cases h : s.bound = 0#32
  · exact .inl ⟨h, by simp [runBounded, h]⟩
  · have hr : runBounded s = sampler samplerFuel s.keepThreshold := by simp [runBounded, h]
    rcases sampler_cases samplerFuel s.keepThreshold with ⟨n, hn, h1, h2, e⟩ | ⟨h1, e⟩
    · exact .inr (.inl ⟨h, n, hn, h1, h2, hr.trans e⟩)
    · exact .inr (.inr ⟨h, h1, hr.trans e⟩)

/-- NEXT_DOUBLE2's effect in terms of the stream of draws. -/
theorem runDouble2_eq (s : State) : runDouble2 s = .next (answerDouble2 { s with
    state := stateAfter s.increment s.params.d2.ndraws s.state,
    dq := (List.range s.params.d2.ndraws).map (drawAt s.increment s.state), dcnt := s.params.d2.ndraws - 1 }) := by
  simp only [runDouble2, State.advances_eq, State.draws_eq]

theorem D2Choice.two_le_ndraws (c : D2Choice) : 2 ≤ c.ndraws := by
  cases c <;> simp [D2Choice.ndraws]

/-! ### Port values still to come -/

/-- A change of the next state; stops stay. -/
def onNext (f : State → State) : Result → Result
  | .next t => .next (f t)
  | .fault r => .fault r
  | .refused r => .refused r

theorem sampler_driving (ps : List Inputs) (fuel : Nat) (s : State) :
    sampler fuel (s.driving ps) = onNext (·.driving ps) (sampler fuel s) := by
  rcases sampler_cases fuel s with ⟨n, hn, h1, h2, e⟩ | ⟨h1, e⟩
  · rw [e, sampler_accepts n hn (s.driving ps) h1 h2]; rfl
  · rw [e, sampler_rejects fuel (s.driving ps) h1]; rfl

/-- Past the accept edge no command reads a port. -/
theorem effectOf_driving (i : Instr) (ps : List Inputs) (s : State) :
    effectOf i (s.driving ps) = onNext (·.driving ps) (effectOf i s) := by
  cases i with
  | nextBounded h b c =>
    show runBounded _ = onNext _ (runBounded _)
    unfold runBounded
    by_cases hb : s.bound = 0#32
    · rw [if_pos hb, if_pos (show (s.driving ps).bound = 0#32 from hb)]; rfl
    · rw [if_neg hb, if_neg (show ¬ (s.driving ps).bound = 0#32 from hb)]
      exact sampler_driving ps _ s.keepThreshold
  | seed a b => simp only [effectOf, runSeed_eq]; rfl
  | autoseed a b => simp only [effectOf, runSeed_eq]; rfl
  | nextDouble2 a b => simp only [effectOf, runDouble2_eq]; rfl
  | _ => rfl

/-- No micro-step after the accept reads a port. -/
theorem microStep_driving (ps : List Inputs) (s : State) :
    microStep (s.driving ps) = onNext (·.driving ps) (microStep s) := by
  unfold microStep
  cases hp : s.phase <;> simp only [State.driving_phase, hp]
  case exec =>
    simp only [microExec, apply_ite (onNext _)]
    rfl
  case bndThr =>
    simp only [microBndThr]
    by_cases hb : s.bound = 0#32
    · rw [if_pos hb, if_pos (show (s.driving ps).bound = 0#32 from hb)]; rfl
    · rw [if_neg hb, if_neg (show ¬ (s.driving ps).bound = 0#32 from hb)]; rfl
  case bndTest =>
    simp only [microBndTest]
    by_cases hb : s.accepts
    · rw [if_pos hb, if_pos (show (s.driving ps).accepts from hb)]; rfl
    · rw [if_neg hb, if_neg (show ¬ (s.driving ps).accepts from hb)]; rfl
  case d2Draw =>
    simp only [microD2Draw]
    by_cases hb : s.dcnt + 1 = s.params.d2.ndraws
    · rw [if_pos hb, if_pos (show (s.driving ps).dcnt + 1 = (s.driving ps).params.d2.ndraws from hb)]; rfl
    · rw [if_neg hb, if_neg (show ¬ (s.driving ps).dcnt + 1 = (s.driving ps).params.d2.ndraws from hb)]; rfl
  all_goals rfl

end Sys2Proof.Machine
end

