-- ==== Sys2Proof/Laws/PerInstr.lean ====
section
/-! SUPPORT. A law of every command as syntax: its word shows its opcode and operands in the fields of R66, below the
reserved opcodes of R71. -/

namespace Sys2Proof.Laws.WordFields

/-- The three fields of the command's word are its opcode and its operands, and the opcode is an assigned one. -/
def Statement (i : Instr) : Prop :=
  CmdWord.op (encode i) = i.opcode ∧ CmdWord.a (encode i) = i.operandA ∧ CmdWord.b (encode i) = i.operandB ∧
    i.opcode ≤ 0x8#4

theorem seed (initState initSequence : U64) : Statement (.seed initState initSequence) :=
  ⟨cmdWord_op .., cmdWord_a .., cmdWord_b .., by simp [Instr.opcode]⟩

theorem autoseed (ignoredA ignoredB : U64) : Statement (.autoseed ignoredA ignoredB) :=
  ⟨cmdWord_op .., cmdWord_a .., cmdWord_b .., by simp [Instr.opcode]⟩

theorem next (ignoredA ignoredB : U64) : Statement (.next ignoredA ignoredB) :=
  ⟨cmdWord_op .., cmdWord_a .., cmdWord_b .., by simp [Instr.opcode]⟩

theorem nextBounded (ignoredHigh bound : U32) (ignoredB : U64) : Statement (.nextBounded ignoredHigh bound ignoredB) :=
  ⟨cmdWord_op .., cmdWord_a .., cmdWord_b .., by simp [Instr.opcode]⟩

theorem nextDouble (ignoredA ignoredB : U64) : Statement (.nextDouble ignoredA ignoredB) :=
  ⟨cmdWord_op .., cmdWord_a .., cmdWord_b .., by simp [Instr.opcode]⟩

theorem nextDouble2 (ignoredA ignoredB : U64) : Statement (.nextDouble2 ignoredA ignoredB) :=
  ⟨cmdWord_op .., cmdWord_a .., cmdWord_b .., by simp [Instr.opcode]⟩

theorem rdState (ignoredA ignoredB : U64) : Statement (.rdState ignoredA ignoredB) :=
  ⟨cmdWord_op .., cmdWord_a .., cmdWord_b .., by simp [Instr.opcode]⟩

theorem rdInc (ignoredA ignoredB : U64) : Statement (.rdInc ignoredA ignoredB) :=
  ⟨cmdWord_op .., cmdWord_a .., cmdWord_b .., by simp [Instr.opcode]⟩

theorem restore (stateImage incrementImage : U64) : Statement (.restore stateImage incrementImage) :=
  ⟨cmdWord_op .., cmdWord_a .., cmdWord_b .., by simp [Instr.opcode]⟩

end Sys2Proof.Laws.WordFields
end

