-- ==== Sys2Proof/Tests/Slice0.lean ====
section
/-! SUPPORT. Tests: the well-formedness smoke test, words written out from 30_encoding.md R66 and R70, single steps with
the expected results of 95_test_vectors.md, and for every statement with hypotheses a witness that meets them. -/

open Sys2Proof Sys2Proof.Machine

namespace Sys2Proof.Tests

/-! ### Helpers -/

/-- The error, the data, and the pair a command leaves. -/
def answer : Result → Option (U2 × U64 × U64 × U64)
  | .next t => some (t.rspErrQ, t.rspDataQ, t.state, t.increment)
  | .fault _ => none
  | .refused _ => none

/-- A next state, if that is the answer. -/
def nextOf : Result → Option State
  | .next t => some t
  | .fault _ => none
  | .refused _ => none

/-- The state a step leads to. -/
def goes (r : Result) : State := (nextOf r).getD State.reset

theorem goes_eq {r : Result} (h : (nextOf r).isSome = true) : r = .next (goes r) := by
  cases r with
  | next t => rfl
  | fault => exact absurd h (by simp [nextOf])
  | refused => exact absurd h (by simp [nextOf])

/-- An idle block that holds a pair. -/
def holding (s i : U64) : State := { State.reset with state := s, increment := i, seeded := true }

/-- The block after `SEED 42, 54` (V1). -/
def seeded42 : State := holding 0x185706B82C2E03F8 0x6D

/-- The same block without FPCONV. -/
def noFp (s : State) : State := { s with params := { hasFpconv := false, d2 := .customary } }

/-- A command on the ports. -/
def showing (op : U4) (a b : U64) : Inputs :=
  { Inputs.quiet with cmdValid := true, cmdOp := op, cmdA := a, cmdB := b }

/-- The ports with entropy values. -/
def entropy (t h : U64) : Inputs := { Inputs.quiet with entTime := t, entId := h }

/-- Reset asserted. -/
def resetting : Inputs := { Inputs.quiet with rst := true }

/-- The response taken. -/
def taking : Inputs := { Inputs.quiet with rspReady := true }

/-- Micro-steps instead of whole commands. -/
def slowly (s : State) : State := { s with pace := .micro }

/-- A command in flight. -/
def inFlight (op : U4) (a b : U64) (phase : Phase) (s : State) : State :=
  { s with opQ := op, aQ := a, bQ := b, phase := phase, pace := .micro }

/-- A response waiting. -/
def waiting (s : State) : State := { s with phase := .resp }

/-! ### Well-formedness: one check, the option FPCONV (R3, R170) -/

theorem test_wf_refuses_double : Instr.wellFormed { hasFpconv := false, d2 := .customary } (.nextDouble 0 0) = false := by
  decide

theorem test_wf_refuses_double2 : Instr.wellFormed { hasFpconv := false, d2 := .customary } (.nextDouble2 0 0) = false := by
  decide

theorem test_wf_accepts_double : Instr.wellFormed Params.standard (.nextDouble 0 0) = true := by decide

theorem test_wf_accepts_base : Instr.wellFormed { hasFpconv := false, d2 := .customary } (.nextBounded 0 0 0) = true := by
  decide

/-! ### Decoding: every opcode, the word written out from R66 and R70 -/

/-- 0000, cmd_a = 2A, cmd_b = 36 (95_test_vectors.md section 8). -/
theorem test_decode_seed : decode 0x0000000000000002A0000000000000036#132 = .instr (.seed 42#64 54#64) := by decide

theorem test_decode_autoseed : decode 0x100000000000000000000000000000000#132 = .instr (.autoseed 0#64 0#64) := by
  decide

theorem test_decode_next : decode 0x200000000000000000000000000000000#132 = .instr (.next 0#64 0#64) := by decide

/-- R151: the high half of `cmd_a` is ignored, the bound is 6. -/
theorem test_decode_nextBounded :
    decode 0x3FFFFFFFF000000060000000000000001#132 = .instr (.nextBounded 0xFFFFFFFF#32 6#32 1#64) := by decide

theorem test_decode_nextDouble : decode 0x400000000000000000000000000000000#132 = .instr (.nextDouble 0#64 0#64) := by
  decide

theorem test_decode_nextDouble2 : decode 0x5FFFFFFFFFFFFFFFF0000000000000000#132 =
    .instr (.nextDouble2 0xFFFFFFFFFFFFFFFF#64 0#64) := by decide

theorem test_decode_rdState : decode 0x600000000000000000000000000000000#132 = .instr (.rdState 0#64 0#64) := by decide

theorem test_decode_rdInc : decode 0x70000000000000000FFFFFFFFFFFFFFFF#132 =
    .instr (.rdInc 0#64 0xFFFFFFFFFFFFFFFF#64) := by decide

theorem test_decode_restore : decode 0x8ACAB187723B11533000000000000006F#132 =
    .instr (.restore 0xACAB187723B11533#64 0x6F#64) := by decide

theorem test_decode_reserved : decode 0x900000000000000000000000000000000#132 = .reserved 0x9#4 ∧
    decode 0xF00000000000000000000000000000000#132 = .reserved 0xF#4 := by decide

theorem test_encode_seed : encode (.seed 42#64 54#64) = 0x0000000000000002A0000000000000036#132 := by decide

theorem test_table_number_too_long : decodeTableWord 136 (2 ^ 132) = none := by decide

/-! ### Arithmetic on the spec's own values -/

/-- V2, first row. -/
theorem test_lcgStep : lcgStep 0x185706B82C2E03F8#64 0x6D#64 = 0x2B47FED88766BB05#64 := by decide

/-- V11: rotation 31 and the truncation; bit 63 through the shift by 18. -/
theorem test_xshRr : xshRr 0xFFFFFFFFFFFFFFFF#64 = 0xFFF00001#32 ∧ xshRr 0x8000000000000000#64 = 0x00000004#32 ∧
    xshRr 0x0800000008000000#64 = 0x80002000#32 := by decide

/-- V13: 6, 2^31 + 1, 2^32 - 1. -/
theorem test_threshold : threshold 6#32 = 4#32 ∧ threshold 0x80000001#32 = 0x7FFFFFFF#32 ∧
    threshold 0xFFFFFFFF#32 = 1#32 ∧ threshold 0x80000000#32 = 0#32 := by decide

/-- R171 / V18. -/
theorem test_f64Scaled : f64Scaled 0 32 = 0#64 ∧ f64Scaled 3 32 = 0x3E08000000000000#64 ∧
    f64Scaled 0x80000001 32 = 0x3FE0000000200000#64 ∧ f64Scaled 1 53 = 0x3CA0000000000000#64 ∧
    f64Scaled 0x3FFFFFF 53 = 0x3E3FFFFFF8000000#64 := by decide

/-! ### One command each -/

/-- V1. -/
theorem test_seed : answer (exec (.seed 42 54) State.reset) = some (0, 0, 0x185706B82C2E03F8, 0x6D) := by decide

/-- V5: all-ones operands, step 4 wraps; the earlier pair is forgotten. -/
theorem test_seed_wraps : answer (exec (.seed 0xFFFFFFFFFFFFFFFF 0xFFFFFFFFFFFFFFFF) seeded42) =
    some (0, 0, 0x4F5C17A566D501A5, 0xFFFFFFFFFFFFFFFF) := by decide

/-- V9. -/
theorem test_autoseed : answer (exec (.autoseed 7 7) (State.reset.driving [entropy 42 27])) =
    some (0, 0, 0xC8FAEF12C5590254, 0x6F) := by decide

/-- V9: bits 63 and 62 of `ent_id` have no influence. -/
theorem test_autoseed_top_bits : answer (exec (.autoseed 0 0) (State.reset.driving [entropy 42 0xC00000000000001B])) =
    some (0, 0, 0xC8FAEF12C5590254, 0x6F) := by decide

/-- V2, first row. -/
theorem test_next : answer (exec (.next 1 1) seeded42) = some (0, 0xA15C02B7, 0x2B47FED88766BB05, 0x6D) := by decide

/-- R194: an unseeded block answers 2 and changes neither register. -/
theorem test_next_unseeded : answer (exec (.next 0 0) State.reset) = some (2, 0, 0, 0) := by decide

/-- V14b: two draws rejected, the third accepted. -/
theorem test_nextBounded_rejects : answer (exec (.nextBounded 0 0xFFFFFFFF 0) (holding 0 1)) =
    some (0, 0xE4C14788, 0xC0B18CCF4E252D17, 1) := by decide

/-- V14c: a zero low half is answered 1 whatever the high half. -/
theorem test_nextBounded_zero : answer (exec (.nextBounded 1 0 0) seeded42) =
    some (1, 0, 0x185706B82C2E03F8, 0x6D) := by decide

/-- V16. -/
theorem test_nextDouble : answer (exec (.nextDouble 0 0) seeded42) =
    some (0, 0x3FE42B8056E00000, 0x2B47FED88766BB05, 0x6D) := by decide

/-- R170: without FPCONV the answer is 3, before the Unseeded check. -/
theorem test_nextDouble_absent : answer (exec (.nextDouble 0 0) (noFp State.reset)) = some (3, 0, 0, 0) := by decide

/-- V17. -/
theorem test_nextDouble2 : answer (exec (.nextDouble2 0 0) seeded42) =
    some (0, 0x3FE42B8055ED1FD0, 0x8B33296D19BF5B4E, 0x6D) := by decide

/-- R180. -/
theorem test_rdState : answer (exec (.rdState 0 0) seeded42) =
    some (0, 0x185706B82C2E03F8, 0x185706B82C2E03F8, 0x6D) := by decide

/-- R181. -/
theorem test_rdInc : answer (exec (.rdInc 0 0) seeded42) = some (0, 0x6D, 0x185706B82C2E03F8, 0x6D) := by decide

/-- R182: an even image is stored odd. -/
theorem test_restore : answer (exec (.restore 5 0) State.reset) = some (0, 0, 5, 1) := by decide

/-! ### One step each -/

/-- The word of SEED 42, 54 placed after reset runs as the first instruction. -/
theorem test_step_fetch : answer (step (State.reset.withFetchWord 132 0x0000000000000002A0000000000000036)) =
    some (0, 0, 0x185706B82C2E03F8, 0x6D) := by decide

/-- V1, third row: SEED_ADV1. -/
theorem test_step_seedAdv1 : answer (step (inFlight 0 42 54 .seedAdv1 (holding 0 0x6D))) =
    some (0, 0, 0x6D, 0x6D) := by decide

/-- V1, fourth row: SEED_ADD. -/
theorem test_step_seedAdd : answer (step (inFlight 0 42 54 .seedAdd (holding 0x6D 0x6D))) =
    some (0, 0, 0x97, 0x6D) := by decide

/-- V14b: a draw equal to the threshold is accepted, one below it is drawn again (R145). -/
theorem test_step_bndTest :
    answer (step { inFlight 3 0x80000001 0 .bndTest seeded42 with thrQ := 0x7FFFFFFF#32, rQ := 0x7FFFFFFF#32 }) =
      some (0, 0x7FFFFFFF, 0x185706B82C2E03F8, 0x6D) ∧
    (goes (step { inFlight 3 0x80000001 0 .bndTest seeded42 with
      thrQ := 0x7FFFFFFF#32, rQ := 0x7FFFFFFE#32 })).phase = .bndDraw := by decide

/-- R86: EXEC with an opcode no row of the table pairs with it stops by name. -/
theorem test_step_noMicroStep : step (inFlight 0 0 0 .exec seeded42) = .fault .noMicroStep := rfl

/-- R223: an empty port sequence drives nothing. -/
theorem test_step_quiet : nextOf (step State.reset) = some State.reset := by decide

/-! ### Witnesses: states and operands that meet a statement's hypotheses -/

theorem witness_ResetEdgeClearsStatus : ((waiting seeded42).driving [resetting]).pins.rst = true := by decide

theorem witness_EncodeOfDecode : decode 0x8FFFFFFFFFFFFFFFFFFFFFFFFFFFFFFFF#132 =
    .instr (.restore 0xFFFFFFFFFFFFFFFF#64 0xFFFFFFFFFFFFFFFF#64) := by decide

theorem witness_OpcodeMapDecodes : 0x9#4 ≤ 0x9#4 ∧ 0x9#4 ≤ 0xF#4 := by decide

theorem witness_FetchWordRunsNext : decodeTableWord 132 0x8FFFFFFFFFFFFFFFFFFFFFFFFFFFFFFFF =
    some (.restore 0xFFFFFFFFFFFFFFFF#64 0xFFFFFFFFFFFFFFFF#64) ∧
    decodeTableWord 132 0x0 = some (.seed 0#64 0#64) := by decide

/-- NEXT shown on the ports of a seeded idle block. -/
def nextShown : State := seeded42.driving [showing 2 0 0]

theorem witness_StepRunsDecodedCommand : nextShown.pins.rst = false ∧ nextShown.phase = .idle ∧
    nextShown.pins.cmdValid = true ∧ nextShown.pace = .command ∧
    decode nextShown.pins.word = .instr (.next 0 0) := by decide

theorem witness_BusyBlockIgnoresCommandPort : (waiting seeded42).phase ≠ .idle ∧
    (showing 2 0 0).rst = Inputs.quiet.rst ∧ (showing 2 0 0).rspReady = Inputs.quiet.rspReady := by decide

theorem witness_IdleWithoutCommandHolds : seeded42.pins.rst = false ∧ seeded42.phase = .idle ∧
    seeded42.pins.cmdValid = false := by decide

theorem witness_ResponseHeldUntilTaken :
    ((waiting seeded42).pins.rst = false ∧ (waiting seeded42).phase = .resp ∧ (waiting seeded42).pins.rspReady = false) ∧
    (((waiting seeded42).driving [taking]).pins.rst = false ∧ ((waiting seeded42).driving [taking]).phase = .resp ∧
      ((waiting seeded42).driving [taking]).pins.rspReady = true) := by decide

/-- NEXT accepted; AUTOSEED shown to a busy block; a reset edge over an AUTOSEED. -/
theorem witness_EntropyReadOnlyByAutoseed :
    ¬ ((showing 2 0 0).rst = false ∧ seeded42.phase = .idle ∧ (showing 2 0 0).cmdValid = true ∧
      (showing 2 0 0).cmdOp = 0x1#4) ∧
    ¬ ((showing 1 0 0).rst = false ∧ (waiting seeded42).phase = .idle ∧ (showing 1 0 0).cmdValid = true ∧
      (showing 1 0 0).cmdOp = 0x1#4) ∧
    ¬ (({ showing 1 0 0 with rst := true } : Inputs).rst = false ∧ seeded42.phase = .idle ∧
      (showing 1 0 0).cmdValid = true ∧ (showing 1 0 0).cmdOp = 0x1#4) := by decide

/-- A seeded block that has answered an error. -/
def faulted : State := { nextShown with faultSticky := true }

theorem witness_OnlyResetClearsStatus : faulted.pins.rst = false ∧ step faulted = .next (goes (step faulted)) ∧
    faulted.seeded = true ∧ faulted.faultSticky = true :=
  ⟨by decide, goes_eq (by decide), by decide, by decide⟩

theorem witness_SeedCompletes : State.reset.phase = .idle ∧ seeded42.phase = .idle := by decide

theorem witness_AutoseedCompletes : (State.reset.driving [entropy 42 0xFFFFFFFFFFFFFFFF]).phase = .idle := by decide

theorem witness_SeedIgnoresTopSequenceBit :
    exec (.seed 42 54) State.reset = .next (goes (exec (.seed 42 54) State.reset)) ∧
    exec (.seed 42 (54 + 0x8000000000000000#64)) State.reset =
      .next (goes (exec (.seed 42 (54 + 0x8000000000000000#64)) State.reset)) :=
  ⟨goes_eq (by decide), goes_eq (by decide)⟩

theorem witness_ReseedingForgetsThePair : seeded42.phase = .idle ∧ (holding 0 1).phase = .idle := by decide

/-- Two idle blocks whose `ent_id` differ in bits 63 and 62. -/
theorem witness_AutoseedCollides :
    let s := State.reset.driving [entropy 42 27]
    let t := seeded42.driving [entropy 42 0xC00000000000001B]
    s.phase = .idle ∧ t.phase = .idle ∧ s.pins.entTime = t.pins.entTime ∧
      s.pins.entId.toNat % 2 ^ 62 = t.pins.entId.toNat % 2 ^ 62 ∧
      exec (.autoseed 0 0) s = .next (goes (exec (.autoseed 0 0) s)) ∧
      exec (.autoseed 1 1) t = .next (goes (exec (.autoseed 1 1) t)) :=
  ⟨by decide, by decide, by decide, by decide, goes_eq (by decide), goes_eq (by decide)⟩

theorem witness_NextCompletes : seeded42.phase = .idle ∧ seeded42.seeded = true := by decide

/-- V14b: the draws 0 and 1 are below the threshold 1, the draw 2 is not. And a first draw accepted at once (V12). -/
theorem witness_NextBoundedAnswersFirstAcceptedDraw :
    ((holding 0 1).phase = .idle ∧ (holding 0 1).seeded = true ∧ 0xFFFFFFFF#32 ≠ 0#32 ∧ 2 < 2 ^ 64 ∧
      (∀ j, j < 2 → drawAt (holding 0 1).increment (holding 0 1).state j < threshold 0xFFFFFFFF#32) ∧
      threshold 0xFFFFFFFF#32 ≤ drawAt (holding 0 1).increment (holding 0 1).state 2) ∧
    (6#32 ≠ 0#32 ∧ 0 < 2 ^ 64 ∧
      (∀ j, j < 0 → drawAt seeded42.increment seeded42.state j < threshold 6#32) ∧
      threshold 6#32 ≤ drawAt seeded42.increment seeded42.state 0) := by decide

theorem witness_NextBoundedAlwaysAnswers : (holding 0 1).phase = .idle ∧ (holding 0 1).seeded = true ∧
    (holding 0 1).increment.getLsbD 0 = true ∧ 0xFFFFFFFF#32 ≠ 0#32 := by decide

theorem witness_PowerOfTwoBoundTakesOneDraw : seeded42.phase = .idle ∧ seeded42.seeded = true ∧
    0 < 32 ∧ 1#32 = BitVec.ofNat 32 (2 ^ 0) ∧ 31 < 32 ∧ 0x80000000#32 = BitVec.ofNat 32 (2 ^ 31) := by decide

theorem witness_BoundedResultBelowBound : seeded42.phase = .idle ∧
    exec (.nextBounded 0 6 0) seeded42 = .next (goes (exec (.nextBounded 0 6 0) seeded42)) ∧
    (goes (exec (.nextBounded 0 6 0) seeded42)).rspErrQ = 0#2 :=
  ⟨by decide, goes_eq (by decide), by decide⟩

theorem witness_NextDoubleCompletes : seeded42.phase = .idle ∧ seeded42.seeded = true ∧
    seeded42.params.hasFpconv = true := by decide

/-- The default, and a choice of three draws whose assembly is unknown. -/
theorem witness_NextDouble2Completes :
    (seeded42.phase = .idle ∧ seeded42.seeded = true ∧ seeded42.params.hasFpconv = true) ∧
    (let s := { seeded42 with params := { hasFpconv := true, d2 := .other 1 0 } }
     s.phase = .idle ∧ s.seeded = true ∧ s.params.hasFpconv = true ∧ s.params.d2.ndraws = 3) := by decide

theorem witness_NextDouble2UnderDefault : seeded42.phase = .idle ∧ seeded42.seeded = true ∧
    seeded42.params.hasFpconv = true ∧ seeded42.params.d2 = .customary := by decide

theorem witness_RdStateCompletes : seeded42.phase = .idle ∧ seeded42.seeded = true := by decide

theorem witness_RdIncCompletes : seeded42.phase = .idle ∧ seeded42.seeded = true ∧ seeded42.Inv := by decide

theorem witness_RestoreCompletes : State.reset.phase = .idle := by decide

/-- An accepted NEXT (its opcode neither 3 nor 5, its error 0), and a busy block. -/
theorem witness_CommandFrame :
    (exec (.next 0 0) seeded42 = .next (goes (exec (.next 0 0) seeded42)) ∧
      (Instr.next 0 0).opcode ≠ 0x3#4 ∧ (Instr.next 0 0).opcode ≠ 0x5#4 ∧
      (goes (exec (.next 0 0) seeded42)).rspErrQ = 0#2) ∧
    (exec (.next 0 0) (waiting seeded42) = .next (waiting seeded42) ∧ (waiting seeded42).phase ≠ .idle) :=
  ⟨⟨goes_eq (by decide), by decide, by decide, by decide⟩, rfl, by decide⟩

/-- A success, an error, and a success after two rejected draws (V14b). -/
theorem witness_WhoWritesThePair :
    (seeded42.phase = .idle ∧ exec (.nextBounded 0 6 0) seeded42 = .next (goes (exec (.nextBounded 0 6 0) seeded42)) ∧
      (goes (exec (.nextBounded 0 6 0) seeded42)).rspErrQ = 0#2) ∧
    (exec (.nextBounded 0 0 0) seeded42 = .next (goes (exec (.nextBounded 0 0 0) seeded42)) ∧
      (goes (exec (.nextBounded 0 0 0) seeded42)).rspErrQ ≠ 0#2) ∧
    (let s := holding 0 1
     let i := Instr.nextBounded 0 0xFFFFFFFF 0
     s.phase = .idle ∧ exec i s = .next (goes (exec i s)) ∧ (goes (exec i s)).rspErrQ = 0#2 ∧
      (goes (exec i s)).state = stateAfter s.increment 3 s.state) :=
  ⟨⟨by decide, goes_eq (by decide), by decide⟩, ⟨goes_eq (by decide), by decide⟩,
    by decide, goes_eq (by decide), by decide, by decide⟩

/-- The lowest and the highest opcode of the range. -/
theorem witness_UnseededCommandIsAnswered :
    (State.reset.phase = .idle ∧ State.reset.seeded = false ∧
      (Instr.next 0 0).wellFormed State.reset.params = true ∧ 0x2#4 ≤ (Instr.next 0 0).opcode ∧
      (Instr.next 0 0).opcode ≤ 0x7#4) ∧
    ((Instr.rdInc 0 0).wellFormed State.reset.params = true ∧ 0x2#4 ≤ (Instr.rdInc 0 0).opcode ∧
      (Instr.rdInc 0 0).opcode ≤ 0x7#4) := by decide

theorem witness_ZeroBoundIsAnswered : seeded42.phase = .idle ∧ seeded42.seeded = true := by decide

/-- Opcodes 0x9 and 0xF, and 0x4 and 0x5 without FPCONV. -/
theorem witness_ReservedOpcodeIsAnswered :
    ∀ s ∈ [seeded42.driving [showing 9 0 0], seeded42.driving [showing 15 0 0],
        noFp (seeded42.driving [showing 4 0 0]), noFp (seeded42.driving [showing 5 0 0])],
      s.pins.rst = false ∧ s.phase = .idle ∧ s.pins.cmdValid = true ∧
      (0x9#4 ≤ s.pins.cmdOp ∨ s.params.hasFpconv = false ∧ (s.pins.cmdOp = 0x4#4 ∨ s.pins.cmdOp = 0x5#4)) := by decide

/-- One command for each clause: an absent option, an unseeded block, a zero bound, a free command. -/
theorem witness_ErrorsInPriorityOrder :
    (exec (.nextDouble 0 0) (noFp State.reset) = .next (goes (exec (.nextDouble 0 0) (noFp State.reset))) ∧
      (Instr.nextDouble 0 0).wellFormed (noFp State.reset).params = false) ∧
    (exec (.nextBounded 0 0 0) State.reset = .next (goes (exec (.nextBounded 0 0 0) State.reset)) ∧
      (Instr.nextBounded 0 0 0).wellFormed State.reset.params = true ∧ 0x2#4 ≤ (Instr.nextBounded 0 0 0).opcode ∧
      (Instr.nextBounded 0 0 0).opcode ≤ 0x7#4 ∧ State.reset.seeded = false) ∧
    (exec (.nextBounded 0 0 0) seeded42 = .next (goes (exec (.nextBounded 0 0 0) seeded42)) ∧
      (Instr.nextBounded 0 0 0).wellFormed seeded42.params = true ∧ seeded42.seeded = true) ∧
    (exec (.restore 0 0) State.reset = .next (goes (exec (.restore 0 0) State.reset)) ∧
      (Instr.restore 0 0).wellFormed State.reset.params = true ∧
      ¬ (0x2#4 ≤ (Instr.restore 0 0).opcode ∧ (Instr.restore 0 0).opcode ≤ 0x7#4)) :=
  ⟨⟨goes_eq (by decide), by decide⟩, ⟨goes_eq (by decide), by decide⟩, ⟨goes_eq (by decide), by decide⟩,
    goes_eq (by decide), by decide⟩

theorem witness_ErrorsArePrecise : State.reset.phase = .idle ∧
    exec (.rdState 0 0) State.reset = .next (goes (exec (.rdState 0 0) State.reset)) ∧
    (goes (exec (.rdState 0 0) State.reset)).rspErrQ ≠ 0#2 :=
  ⟨by decide, goes_eq (by decide), by decide⟩

/-- An AUTOSEED on an unseeded block and a NEXT_DOUBLE2 on a seeded one. -/
theorem witness_AcceptEntersFirstPhase :
    (let s := slowly (State.reset.driving [showing 1 0 0])
     s.pins.rst = false ∧ s.phase = .idle ∧ s.pins.cmdValid = true ∧ s.pace = .micro ∧
      decode s.pins.word = .instr (.autoseed 0 0) ∧ (Instr.autoseed 0 0).wellFormed s.params = true ∧
      (s.seeded = true ∨ (Instr.autoseed 0 0).opcode ∈ [0x0#4, 0x1#4, 0x8#4])) ∧
    (let s := slowly (seeded42.driving [showing 5 0 0])
     s.pins.rst = false ∧ s.phase = .idle ∧ s.pins.cmdValid = true ∧ s.pace = .micro ∧
      decode s.pins.word = .instr (.nextDouble2 0 0) ∧ (Instr.nextDouble2 0 0).wellFormed s.params = true ∧
      (s.seeded = true ∨ (Instr.nextDouble2 0 0).opcode ∈ [0x0#4, 0x1#4, 0x8#4]) ∧ s.pins.cmdOp = 0x5#4) := by
  decide

theorem witness_SeedingMicroSteps :
    ∀ p ∈ [Phase.seedZero, .seedInc, .seedAdv1, .seedAdd, .seedAdv2],
      (inFlight 0 42 54 p State.reset).pins.rst = false ∧ (inFlight 0 42 54 p State.reset).phase = p := by decide

theorem witness_ExecPhaseMicroSteps :
    ∀ op ∈ [0x2#4, 0x4#4, 0x6#4, 0x7#4, 0x8#4],
      (inFlight op 0 0 .exec seeded42).pins.rst = false ∧ (inFlight op 0 0 .exec seeded42).phase = .exec ∧
      (inFlight op 0 0 .exec seeded42).opQ = op := by decide

theorem witness_SamplerMicroSteps :
    ∀ p ∈ [Phase.bndThr, .bndDraw, .bndTest],
      (inFlight 3 6 0 p seeded42).pins.rst = false ∧ (inFlight 3 6 0 p seeded42).phase = p := by decide

/-- A zero low half in BND_THR; a draw equal to the threshold and one just below it in BND_TEST. -/
theorem witness_SamplerMicroSteps_branches :
    (let s := inFlight 3 0x0000000100000000 0 .bndThr seeded42
     s.pins.rst = false ∧ s.phase = .bndThr ∧ s.aQ.setWidth 32 = 0#32) ∧
    (let s := { inFlight 3 0x80000001 0 .bndTest seeded42 with thrQ := 0x7FFFFFFF#32, rQ := 0x7FFFFFFF#32 }
     s.pins.rst = false ∧ s.phase = .bndTest ∧ s.thrQ ≤ s.rQ) ∧
    (let s := { inFlight 3 0x80000001 0 .bndTest seeded42 with thrQ := 0x7FFFFFFF#32, rQ := 0x7FFFFFFE#32 }
     s.pins.rst = false ∧ s.phase = .bndTest ∧ ¬ s.thrQ ≤ s.rQ) := by decide

theorem witness_Double2MicroStep : (inFlight 5 0 0 .d2Draw seeded42).pins.rst = false ∧
    (inFlight 5 0 0 .d2Draw seeded42).phase = .d2Draw := by decide

/-- NEXT_BOUNDED shown to a seeded idle block that takes micro-steps. -/
def boundedShown : State := slowly (seeded42.driving [showing 3 6 0])

theorem witness_MicroStepsRefineCommand : boundedShown.Inv ∧ boundedShown.phase = .idle ∧ boundedShown.pace = .micro ∧
    boundedShown.pins.cmdValid = true ∧ (∀ p ∈ boundedShown.inputs, p.rst = false) ∧
    decode boundedShown.pins.word = .instr (.nextBounded 0 6 0) ∧
    exec (.nextBounded 0 6 0) boundedShown = .next (goes (exec (.nextBounded 0 6 0) boundedShown)) :=
  ⟨by decide, by decide, by decide, by decide, by decide, by decide, goes_eq (by decide)⟩

/-- A pair no seeding leaves: the increment 0 keeps the state 0, whose draw 0 is below the threshold 1 of the bound 3. -/
def stuckShown : State := slowly ((holding 0 0).driving [showing 3 3 0])

theorem stateAfter_zero (n : Nat) : stateAfter 0#64 n 0#64 = 0#64 := by
  induction n with
  | zero => rfl
  | succ n ih => exact (congrArg (stateAfter 0#64 n) (by decide : lcgStep 0#64 0#64 = 0#64)).trans ih

theorem witness_EndlessSamplerNeverAnswers : stuckShown.phase = .idle ∧ stuckShown.pace = .micro ∧
    stuckShown.pins.cmdValid = true ∧ (∀ p ∈ stuckShown.inputs, p.rst = false) ∧
    decode stuckShown.pins.word = .instr (.nextBounded 0 3 0) ∧
    exec (.nextBounded 0 3 0) stuckShown = .fault .samplerEndless := by
  refine ⟨by decide, by decide, by decide, by decide, by decide, ?_⟩
  have hd : dispatchError 0x3#4 stuckShown = none := by decide
  rw [exec_nextBounded, command_runs (by decide) hd]
  have hb : (stuckShown.latch 0x3#4 ((0 : U32) ++ (3 : U32)) 0).bound = 3#32 := by decide
  rw [runBounded, if_neg (by rw [hb]; decide)]
  refine sampler_rejects _ _ fun j _ => ?_
  show xshRr (stateAfter 0#64 j 0#64) < threshold _
  rw [stateAfter_zero, hb]
  decide

theorem witness_StepKeepsInvariant : nextShown.Inv ∧ step nextShown = .next (goes (step nextShown)) :=
  ⟨by decide, goes_eq (by decide)⟩

/-- The invariant allows every phase. -/
theorem witness_StepNeverStops :
    ∀ s ∈ [State.reset, inFlight 0 42 54 .seedZero State.reset, inFlight 0 42 54 .seedInc State.reset,
        inFlight 0 42 54 .seedAdv1 (holding 0 0x6D), inFlight 0 42 54 .seedAdd (holding 0x6D 0x6D),
        inFlight 1 42 54 .seedAdv2 (holding 0x97 0x6D), inFlight 4 0 0 .exec seeded42, inFlight 3 0 0 .bndThr seeded42,
        { inFlight 3 6 0 .bndDraw seeded42 with thrQ := 4#32 }, { inFlight 3 6 0 .bndTest seeded42 with thrQ := 4#32 },
        { inFlight 5 0 0 .d2Draw seeded42 with dcnt := 1 }, waiting seeded42], s.Inv := by decide

/-- Two blocks that hold the same pair and differ elsewhere. -/
theorem witness_ResponsesDependOnPairAlone :
    seeded42.phase = .idle ∧ faulted.phase = .idle ∧ seeded42.pace = .command ∧ faulted.pace = .command ∧
      seeded42.sameStream faulted ∧ seeded42 ≠ faulted :=
  ⟨by decide, by decide, by decide, by decide, ⟨rfl, rfl, rfl, rfl⟩, by decide⟩

/-- A save and a restore on a fresh block. -/
theorem witness_RestoreReproducesSavedPoint :
    let s1 := ((serve (showing 6 0 0) seeded42).getD (⟨0, 0⟩, State.reset)).2
    let s2 := ((serve (showing 7 0 0) s1).getD (⟨0, 0⟩, State.reset)).2
    let r := showing 8 0x185706B82C2E03F8 0x6D
    let t1 := ((serve r State.reset).getD (⟨0, 0⟩, State.reset)).2
    seeded42.Inv ∧ seeded42.phase = .idle ∧ seeded42.pace = .command ∧ seeded42.seeded = true ∧
      State.reset.phase = .idle ∧ State.reset.pace = .command ∧ State.reset.params = seeded42.params ∧
      (showing 6 0 0).cmdOp = 0x6#4 ∧ serve (showing 6 0 0) seeded42 = some (⟨0, 0x185706B82C2E03F8⟩, s1) ∧
      (showing 7 0 0).cmdOp = 0x7#4 ∧ serve (showing 7 0 0) s1 = some (⟨0, 0x6D⟩, s2) ∧
      r.cmdOp = 0x8#4 ∧ r.cmdA = (⟨0, 0x185706B82C2E03F8⟩ : Response).data ∧ r.cmdB = (⟨0, 0x6D⟩ : Response).data ∧
      serve r State.reset = some (⟨0, 0⟩, t1) := by decide

theorem witness_EveryScriptIsAnswered : seeded42.Inv ∧ seeded42.phase = .idle ∧ seeded42.pace = .command := by decide

theorem witness_LcgHasFullPeriod : (1#64).getLsbD 0 = true := by decide

theorem witness_PermutationReadsBits : 0 < 32 ∧ 31 < 32 ∧ 0 < 5 ∧ 4 < 5 := by decide

theorem witness_RotationMovesBits : 0 < 32 ∧ 31 < 32 := by decide

theorem witness_ThresholdLaws : 1#32 ≠ 0#32 ∧ 0xFFFFFFFF#32 ≠ 0#32 ∧ 2 ^ 31 < (0x80000001#32).toNat := by decide

theorem witness_AcceptedResiduesAreEven : 0#32 < 1#32 ∧ 0xFFFFFFFE#32 < 0xFFFFFFFF#32 := by decide

theorem witness_PatternStandsForScaledNumber : 0 < 2 ^ 53 ∧ 2 ^ 53 - 1 < 2 ^ 53 ∧ 0 ≤ 1022 ∧ 1022 ≤ 1022 := by decide

theorem witness_DoublesLieBelowOne : seeded42.phase = .idle ∧
    ((Instr.nextDouble 0 0).opcode = 0x4#4 ∨ (Instr.nextDouble 0 0).opcode = 0x5#4) ∧
    exec (.nextDouble 0 0) seeded42 = .next (goes (exec (.nextDouble 0 0) seeded42)) ∧
    (goes (exec (.nextDouble 0 0) seeded42)).rspErrQ = 0#2 ∧
    ((Instr.nextDouble2 0 0).opcode = 0x4#4 ∨ (Instr.nextDouble2 0 0).opcode = 0x5#4) ∧
    exec (.nextDouble2 0 0) seeded42 = .next (goes (exec (.nextDouble2 0 0) seeded42)) ∧
    (goes (exec (.nextDouble2 0 0) seeded42)).rspErrQ = 0#2 ∧ 2 ^ 53 - 1 < 2 ^ 53 :=
  ⟨by decide, by decide, goes_eq (by decide), by decide, by decide, goes_eq (by decide), by decide, by decide⟩

end Sys2Proof.Tests
end

section
/-! PROOFS. The frame of a command (R14, R24, R30, R34): what the shared operations and each command's effect leave
unchanged, and from it the statement about exec. -/

namespace Sys2Proof.Machine

/-- What a command with opcode `op` leaves unchanged between `s` and `t`: the port values, the parameters and the model's
own fields; the sampler's latches but for NEXT_BOUNDED; the draws but for NEXT_DOUBLE2; `fault_sticky` on success. -/
structure Framed (op : U4) (s t : State) : Prop where
  host : t.inputs = s.inputs ∧ t.params = s.params ∧ t.pace = s.pace ∧ t.resets = s.resets
  sampler : op ≠ 0x3#4 → t.thrQ = s.thrQ ∧ t.rQ = s.rQ
  draws : op ≠ 0x5#4 → t.dq = s.dq ∧ t.dcnt = s.dcnt
  fault : t.rspErrQ = 0#2 → t.faultSticky = s.faultSticky

/-! ### The shared operations -/

theorem Framed.refl (op : U4) (s : State) : Framed op s s :=
  ⟨⟨rfl, rfl, rfl, rfl⟩, fun _ => ⟨rfl, rfl⟩, fun _ => ⟨rfl, rfl⟩, fun _ => rfl⟩

theorem errorCode_ne_zero (e : Error) : errorCode e ≠ 0#2 := by
  cases e <;> decide

/-- An error response writes `fault_sticky`, but its code is not the code of success (R190, R191). -/
theorem framed_raise (op : U4) (s : State) (e : Error) : Framed op s (s.raise e) :=
  ⟨⟨rfl, rfl, rfl, rfl⟩, fun _ => ⟨rfl, rfl⟩, fun _ => ⟨rfl, rfl⟩, fun h => absurd h (errorCode_ne_zero e)⟩

theorem framed_respond_withPair (op : U4) (s : State) (state increment d : U64) (seeded : Bool) :
    Framed op s (State.respond d { s with state := state, increment := increment, seeded := seeded }) :=
  ⟨⟨rfl, rfl, rfl, rfl⟩, fun _ => ⟨rfl, rfl⟩, fun _ => ⟨rfl, rfl⟩, fun _ => rfl⟩

/-- The latches the accept edge writes are none of the framed registers (R80). -/
theorem framed_of_latch {op op' : U4} {a b : U64} {s t : State} (h : Framed op (s.latch op' a b) t) :
    Framed op s t :=
  ⟨h.host, h.sampler, h.draws, h.fault⟩

/-! ### The commands' effects -/

/-- All that an effect writes, but for NEXT_BOUNDED and NEXT_DOUBLE2: the pair, `seeded` and a success response. -/
theorem effectOf_next_respond_withPair {i : Instr} {s t : State} (h : effectOf i s = .next t) (h3 : i.opcode ≠ 0x3#4)
    (h5 : i.opcode ≠ 0x5#4) : ∃ state increment d seeded,
      t = State.respond d { s with state := state, increment := increment, seeded := seeded } := by
  cases i with
  | nextBounded high bound b => exact absurd rfl h3
  | nextDouble2 a b => exact absurd rfl h5
  | _ => exact ⟨_, _, _, _, (Host.Outcome.next.inj h).symm⟩

/-- NEXT_BOUNDED writes the sampler's latches, which its own frame leaves out, and errs or answers a draw (R141, R142). -/
theorem framed_of_runBounded {s t : State} (h : runBounded s = .next t) : Framed 0x3#4 s t := by
  rcases runBounded_cases s with ⟨_, e⟩ | ⟨_, n, _, _, _, e⟩ | ⟨_, _, e⟩ <;> rw [e] at h
  · obtain rfl := Host.Outcome.next.inj h
    exact framed_raise ..
  · obtain rfl := Host.Outcome.next.inj h
    exact ⟨⟨rfl, rfl, rfl, rfl⟩, fun h3 => absurd rfl h3, fun _ => ⟨rfl, rfl⟩, fun _ => rfl⟩
  · exact nomatch h

/-- NEXT_DOUBLE2 writes the draws, which its own frame leaves out (R162). -/
theorem framed_of_runDouble2 {s t : State} (h : runDouble2 s = .next t) : Framed 0x5#4 s t := by
  rw [runDouble2_eq] at h
  obtain rfl := Host.Outcome.next.inj h
  exact ⟨⟨rfl, rfl, rfl, rfl⟩, fun _ => ⟨rfl, rfl⟩, fun h5 => absurd rfl h5, fun _ => rfl⟩

theorem framed_of_effectOf {i : Instr} {s t : State} (h : effectOf i s = .next t) : Framed i.opcode s t := by
  cases i with
  | nextBounded high bound b => exact framed_of_runBounded h
  | nextDouble2 a b => exact framed_of_runDouble2 h
  | _ =>
    obtain ⟨_, _, _, _, rfl⟩ :=
      effectOf_next_respond_withPair h (by simp [Instr.opcode]) (by simp [Instr.opcode])
    exact framed_respond_withPair ..

/-! ### The command -/

/-- A busy block does not look at a command (R80, log entry 7). -/
theorem exec_busy {s : State} (hb : s.phase ≠ .idle) (i : Instr) : exec i s = .next s :=
  (exec_eq i s).trans (command_busy hb)

theorem framed_of_exec {i : Instr} {s t : State} (h : exec i s = .next t) : Framed i.opcode s t := by
  rcases exec_cases i s with ⟨_, e⟩ | ⟨_, err, _, e⟩ | ⟨_, _, e⟩ <;> rw [e] at h
  · obtain rfl := Host.Outcome.next.inj h
    exact Framed.refl ..
  · obtain rfl := Host.Outcome.next.inj h
    exact framed_of_latch (framed_raise ..)
  · exact framed_of_latch (framed_of_effectOf h)

/-- Settles O32: each outcome of a command run whole (not accepted, an error at dispatch, its own effect) stays within
the command's frame. -/
theorem commandFrame : Obligations.CommandFrame := by
  unfold Obligations.CommandFrame
  intro i s t h
  have hf : Framed i.opcode s t := framed_of_exec h
  have hbusy : s.phase ≠ .idle → t = s := fun hb => Host.Outcome.next.inj (h.symm.trans (exec_busy hb i))
  exact ⟨hf.host, hf.sampler, hf.draws, hf.fault, hbusy⟩

end Sys2Proof.Machine
end

section
/-! PROOFS. What a command writes of the pair and `seeded` (R24, R141, R149, R191): all that a command accepted in IDLE
can answer, and from it the statement of R24's table. -/

namespace Sys2Proof.Machine

/-- R24's table, one row a command: what a command that succeeds writes of `state`, `increment` and `seeded`. -/
def WritesPair (i : Instr) (s t : State) : Prop :=
  match i with
  | .seed _ _ | .autoseed _ _ | .restore _ _ => t.seeded = true ∧ t.increment.getLsbD 0 = true
  | .next _ _ | .nextDouble _ _ =>
      t.state = lcgStep s.state s.increment ∧ t.increment = s.increment ∧ t.seeded = s.seeded
  | .nextBounded _ bound _ =>
      (∃ n : Nat, (∀ j, j < n → drawAt s.increment s.state j < threshold bound) ∧
          threshold bound ≤ drawAt s.increment s.state n ∧ t.state = stateAfter s.increment (n + 1) s.state) ∧
        t.increment = s.increment ∧ t.seeded = s.seeded
  | .nextDouble2 _ _ =>
      t.state = stateAfter s.increment s.params.d2.ndraws s.state ∧ t.increment = s.increment ∧ t.seeded = s.seeded
  | .rdState _ _ | .rdInc _ _ => t.state = s.state ∧ t.increment = s.increment ∧ t.seeded = s.seeded

/-- The increment a command writes is odd once the block is seeded, and only a seeding writes it (R22, R24). -/
theorem WritesPair.seeding {i : Instr} {s t : State} (h : WritesPair i s t) :
    (t.seeded = true ∧ t.increment.getLsbD 0 = true) ∨ (t.increment = s.increment ∧ t.seeded = s.seeded) := by
  cases i with
  | seed | autoseed | restore => exact .inl h
  | _ => exact .inr h.2

/-- Forcing bit 0 makes an increment odd (R22, R182). -/
theorem or_one_odd (x : U64) : (or64 x 1#64).getLsbD 0 = true := by
  simp [or64]

theorem oddIncrement_odd (sequence : U64) : (oddIncrement sequence).getLsbD 0 = true := or_one_odd _

/-- NEXT_BOUNDED's latched bound is the low half of its first operand (R68). -/
theorem latch_bound (s : State) (high bound : U32) (b : U64) :
    (s.latch 0x3#4 (high ++ bound) b).bound = bound := by
  have hlatch : operandLatchA s.pins 0x3#4 (high ++ bound) = high ++ bound := if_neg (by decide)
  rw [State.bound, State.latch_aQ, hlatch]
  exact (BitVec.setWidth_append.trans (dif_pos (Nat.le_refl 32))).trans (BitVec.setWidth_eq bound)

/-! ### All that an accepted command can answer -/

/-- A command accepted in IDLE answers an error, which writes nothing but the latches, `fault_sticky` and `phase`
(R191), or a success, which writes the pair by the command's row of R24's table. -/
def AnswersFrom (i : Instr) (s t : State) : Prop :=
  (∃ e, t = (s.latch i.opcode i.operandA i.operandB).raise e) ∨
    (t.rspErrQ = 0#2 ∧ t.phase = .resp ∧ WritesPair i s t)

/-- NEXT_BOUNDED past dispatch: BoundZero, or as many draws as it takes (R141, R142). -/
theorem answersFrom_of_runBounded {high bound : U32} {b : U64} {s t : State}
    (h : runBounded (s.latch 0x3#4 (high ++ bound) b) = .next t) : AnswersFrom (.nextBounded high bound b) s t := by
  rcases runBounded_cases (s.latch 0x3#4 (high ++ bound) b) with ⟨_, e⟩ | ⟨_, n, _, hbelow, haccept, e⟩ | ⟨_, _, e⟩ <;>
    rw [e] at h
  · exact .inl ⟨.boundZero, (Host.Outcome.next.inj h).symm⟩
  · obtain rfl := Host.Outcome.next.inj h
    rw [latch_bound] at hbelow haccept
    exact .inr ⟨rfl, rfl, ⟨n, hbelow, haccept, rfl⟩, rfl, rfl⟩
  · exact nomatch h

theorem answersFrom_of_effectOf {i : Instr} {s t : State}
    (h : effectOf i (s.latch i.opcode i.operandA i.operandB) = .next t) : AnswersFrom i s t := by
  cases i with
  | seed | autoseed =>
    obtain rfl := Host.Outcome.next.inj ((runSeed_eq _).symm.trans h)
    exact .inr ⟨rfl, rfl, rfl, oddIncrement_odd _⟩
  | restore =>
    obtain rfl := Host.Outcome.next.inj h
    exact .inr ⟨rfl, rfl, rfl, or_one_odd _⟩
  | nextBounded high bound b => exact answersFrom_of_runBounded h
  | nextDouble2 =>
    obtain rfl := Host.Outcome.next.inj ((runDouble2_eq _).symm.trans h)
    exact .inr ⟨rfl, rfl, rfl, rfl, rfl⟩
  | next | nextDouble | rdState | rdInc =>
    obtain rfl := Host.Outcome.next.inj h
    exact .inr ⟨rfl, rfl, rfl, rfl, rfl⟩

theorem answersFrom_of_exec {i : Instr} {s t : State} (hidle : s.phase = .idle) (h : exec i s = .next t) :
    AnswersFrom i s t := by
  rcases exec_cases i s with ⟨hbusy, _⟩ | ⟨_, err, _, e⟩ | ⟨_, _, e⟩
  · exact absurd hidle hbusy
  · exact .inl ⟨err, Host.Outcome.next.inj (h.symm.trans e)⟩
  · exact answersFrom_of_effectOf (e.symm.trans h)

/-- Settles O33: an error writes none of the three registers, and a success writes them by the command's row. -/
theorem whoWritesThePair : Obligations.WhoWritesThePair := by
  unfold Obligations.WhoWritesThePair
  intro i s t hidle h
  rcases answersFrom_of_exec hidle h with ⟨e, rfl⟩ | ⟨hok, _, hpair⟩
  · exact ⟨fun _ => ⟨rfl, rfl, rfl⟩, fun hok => absurd hok (errorCode_ne_zero e)⟩
  · exact ⟨fun herr => absurd hok herr, fun _ => hpair⟩

end Sys2Proof.Machine
end

section
/-! PROOFS. All that a transition of the block can be, by name, and what no transition but a reset edge clears (R25, R26,
R220). -/

namespace Sys2Proof.Machine

/-! ### The transitions (R80 to R86, R220) -/

/-- The block's transitions from a state, one constructor for each way a step can go. It says what a step can do, not when:
of the ports and `phase` it keeps only what the invariants below need. -/
inductive Transition (s : State) : State → Prop where
  | reset (hrst : s.pins.rst = true) : Transition s s.resetEdge
  | hold : Transition s s
  | take : Transition s s.take
  /-- A command run whole (R14). -/
  | serve {t : State} (i : Instr) (hidle : s.phase = .idle) (h : exec i s = .next t) : Transition s t
  /-- A command that errs at the accept edge (R81). -/
  | err (op : U4) (a b : U64) (e : Error) : Transition s ((s.latch op a b).raise e)
  /-- A command that passes dispatch and enters its first phase (R82). -/
  | enter (op : U4) (a b : U64) (hpass : dispatchError op s = none) : Transition s (enterPhase op (s.latch op a b))
  | micro {t : State} (h : microStep s = .next t) : Transition s t

/-- A command word run whole is a decoded command's meaning, or IllegalCommand for a reserved opcode (R71, R195). -/
theorem acceptCommand_cases (s : State) :
    (∃ i, decode s.pins.word = .instr i ∧ acceptCommand exec s = exec i s) ∨
    (∃ op, decode s.pins.word = .reserved op ∧
      acceptCommand exec s = .next ((s.latch op s.pins.cmdA s.pins.cmdB).raise .illegalCommand)) := by
  unfold acceptCommand
  cases hd : decode s.pins.word with
  | instr i => exact .inl ⟨i, rfl, rfl⟩
  | reserved op => exact .inr ⟨op, rfl, rfl⟩

theorem transition_of_acceptEdge {s t : State} (hidle : s.phase = .idle) (h : acceptEdge exec s = .next t) :
    Transition s t := by
  unfold acceptEdge at h
  cases hpace : s.pace with
  | command =>
    simp only [hpace] at h
    rcases acceptCommand_cases s with ⟨i, _, e⟩ | ⟨op, _, e⟩ <;> rw [e] at h
    · exact .serve i hidle h
    · obtain rfl := Host.Outcome.next.inj h
      exact .err ..
  | micro =>
    simp only [hpace] at h
    obtain rfl := Host.Outcome.next.inj h
    unfold microAccept
    cases hd : dispatchError s.pins.cmdOp s with
    | some e => exact .err ..
    | none => exact .enter _ _ _ hd

/-- A step to a next state is a transition, after which the host moves on. -/
theorem transition_of_step {s t : State} (h : step s = .next t) : ∃ u, Transition s u ∧ t = u.hostMoves := by
  obtain ⟨u, hedge, rfl⟩ := step_eq_next h
  refine ⟨u, ?_, rfl⟩
  rcases portEdge_cases s with ⟨hrst, e⟩ | ⟨_, _, _, e⟩ | ⟨_, hidle, _, e⟩ | ⟨_, _, e⟩ | ⟨_, _, _, e⟩ <;>
    rw [e] at hedge
  · obtain rfl := Host.Outcome.next.inj hedge
    exact .reset hrst
  · obtain rfl := Host.Outcome.next.inj hedge
    exact .hold
  · exact transition_of_acceptEdge hidle hedge
  · obtain rfl := Host.Outcome.next.inj hedge
    split
    · exact .take
    · exact .hold
  · exact .micro hedge

/-- The micro-step of EXEC answers a draw, a read or a restored pair (R125, R163, R183 to R185). -/
theorem microExec_next {s t : State} (h : microExec s = .next t) :
    (∃ d, t = s.advance.respond d) ∨ (∃ d, t = s.respond d) ∨ t = restorePair s := by
  unfold microExec at h
  split_ifs at h <;> obtain rfl := Host.Outcome.next.inj h
  · exact .inl ⟨_, rfl⟩
  · exact .inl ⟨_, rfl⟩
  · exact .inr (.inl ⟨_, rfl⟩)
  · exact .inr (.inl ⟨_, rfl⟩)
  · exact .inr (.inr rfl)

/-! ### The status bits -/

/-- `seeded` and `fault_sticky` stay 1 where they were 1 (R25, R26). -/
def StatusKept (s t : State) : Prop :=
  (s.seeded = true → t.seeded = true) ∧ (s.faultSticky = true → t.faultSticky = true)

/-- A command errs, which sets `fault_sticky` and leaves `seeded`, or succeeds, which leaves `fault_sticky` and at most
sets `seeded`. -/
theorem statusKept_of_exec {i : Instr} {s t : State} (hidle : s.phase = .idle) (h : exec i s = .next t) :
    StatusKept s t := by
  rcases answersFrom_of_exec hidle h with ⟨e, rfl⟩ | ⟨hok, _, hpair⟩
  · exact ⟨id, fun _ => rfl⟩
  · have hfault : t.faultSticky = s.faultSticky := (framed_of_exec h).fault hok
    refine ⟨fun hs => ?_, hfault.trans⟩
    rcases hpair.seeding with ⟨hset, _⟩ | ⟨_, hkept⟩
    · exact hset
    · exact hkept.trans hs

theorem statusKept_enterPhase (op : U4) (s : State) : StatusKept s (enterPhase op s) := by
  unfold enterPhase
  split_ifs <;> exact ⟨id, id⟩

theorem statusKept_of_microStep {s t : State} (h : microStep s = .next t) : StatusKept s t := by
  cases hp : s.phase <;> simp only [microStep, hp] at h
  case exec =>
    rcases microExec_next h with ⟨d, rfl⟩ | ⟨d, rfl⟩ | rfl
    · exact ⟨id, id⟩
    · exact ⟨id, id⟩
    · exact ⟨fun _ => rfl, id⟩
  all_goals obtain rfl := Host.Outcome.next.inj h
  case seedAdv2 => exact ⟨fun _ => rfl, id⟩
  case bndThr =>
    unfold microBndThr
    split_ifs
    · exact ⟨id, fun _ => rfl⟩
    · exact ⟨id, id⟩
  case bndTest => unfold microBndTest; split_ifs <;> exact ⟨id, id⟩
  case d2Draw => unfold microD2Draw; split_ifs <;> exact ⟨id, id⟩
  all_goals exact ⟨id, id⟩

/-- Settles O15: every transition but the reset edge keeps the two status bits. -/
theorem onlyResetClearsStatus : Obligations.OnlyResetClearsStatus := by
  unfold Obligations.OnlyResetClearsStatus
  intro s t hrst h
  obtain ⟨u, htrans, rfl⟩ := transition_of_step h
  show StatusKept s u
  cases htrans with
  | reset hrst' => exact absurd (hrst.symm.trans hrst') Bool.false_ne_true
  | hold | take => exact ⟨id, id⟩
  | serve i hidle h => exact statusKept_of_exec hidle h
  | err op a b e => exact ⟨id, fun _ => rfl⟩
  | enter op a b _ => exact statusKept_enterPhase op (s.latch op a b)
  | micro h => exact statusKept_of_microStep h

end Sys2Proof.Machine
end

section
/-! PROOFS. The invariant of the block (R22, R28 to R30, R86): what it says in each phase, and that reset meets it and
every transition keeps it. -/

namespace Sys2Proof.Machine

/-! ### The invariant by parts -/

/-- The part of the invariant that does not look at `phase`: R22 and the ranges of R30. -/
def RegistersFit (s : State) : Prop :=
  (s.seeded = true → s.increment.getLsbD 0 = true) ∧ s.dq.length = s.params.d2.ndraws ∧ s.dcnt ≤ s.params.d2.ndraws

theorem inv_iff {s : State} : s.Inv ↔ RegistersFit s ∧ s.phaseFits = true := by
  simp only [State.Inv, RegistersFit, and_assoc]

/-! What the latches hold, phase by phase. -/

theorem phaseFits_idle {s : State} (hp : s.phase = .idle) : s.phaseFits = true := by
  simp [State.phaseFits, hp]

theorem phaseFits_seedLatched {s : State} (hp : s.phase = .seedZero ∨ s.phase = .seedInc) :
    s.phaseFits = true ↔ s.opQ = 0x0#4 ∨ s.opQ = 0x1#4 := by
  rcases hp with hp | hp <;> simp [State.phaseFits, hp]

theorem phaseFits_seedSelected {s : State} (hp : s.phase = .seedAdv1 ∨ s.phase = .seedAdd ∨ s.phase = .seedAdv2) :
    s.phaseFits = true ↔ (s.opQ = 0x0#4 ∨ s.opQ = 0x1#4) ∧ s.increment = oddIncrement s.bQ := by
  rcases hp with hp | hp | hp <;> simp [State.phaseFits, hp]

theorem phaseFits_exec {s : State} (hp : s.phase = .exec) :
    s.phaseFits = true ↔
      (s.opQ = 0x8#4 ∨ s.seeded = true ∧ (s.opQ = 0x2#4 ∨ s.opQ = 0x4#4 ∨ s.opQ = 0x6#4 ∨ s.opQ = 0x7#4)) ∧
        reserved s.params s.opQ = false := by
  simp [State.phaseFits, hp]

theorem phaseFits_bndThr {s : State} (hp : s.phase = .bndThr) :
    s.phaseFits = true ↔ s.opQ = 0x3#4 ∧ s.seeded = true := by
  simp [State.phaseFits, hp]

theorem phaseFits_sampling {s : State} (hp : s.phase = .bndDraw ∨ s.phase = .bndTest) :
    s.phaseFits = true ↔ s.opQ = 0x3#4 ∧ s.seeded = true ∧ s.bound ≠ 0#32 ∧ s.thrQ = threshold s.bound := by
  rcases hp with hp | hp <;> simp [State.phaseFits, hp]

theorem phaseFits_d2Draw {s : State} (hp : s.phase = .d2Draw) :
    s.phaseFits = true ↔
      s.opQ = 0x5#4 ∧ s.seeded = true ∧ s.params.hasFpconv = true ∧ s.dcnt < s.params.d2.ndraws := by
  simp [State.phaseFits, hp]

theorem phaseFits_resp {s : State} (hp : s.phase = .resp) :
    s.phaseFits = true ↔ (s.rspErrQ ≠ 0#2 → s.rspDataQ = 0#64 ∧ s.faultSticky = true) := by
  simp only [State.phaseFits, hp, decide_eq_true_iff]

/-! ### The two ways a command ends (R83, R191) -/

theorem inv_of_success {s : State} (h : RegistersFit s) (hresp : s.phase = .resp) (hok : s.rspErrQ = 0#2) : s.Inv :=
  inv_iff.2 ⟨h, (phaseFits_resp hresp).2 fun herr => absurd hok herr⟩

theorem inv_raise {s : State} (h : RegistersFit s) (e : Error) : (s.raise e).Inv :=
  inv_iff.2 ⟨h, (phaseFits_resp rfl).2 fun _ => ⟨rfl, rfl⟩⟩

/-! ### A command run whole -/

/-- Only NEXT_DOUBLE2 writes the draws, all D2_NDRAWS of them (R162, R164). -/
theorem drawsFit_of_exec {i : Instr} {s t : State} (h : exec i s = .next t) (hlen : s.dq.length = s.params.d2.ndraws)
    (hcnt : s.dcnt ≤ s.params.d2.ndraws) : t.dq.length = t.params.d2.ndraws ∧ t.dcnt ≤ t.params.d2.ndraws := by
  rcases exec_cases i s with ⟨_, e⟩ | ⟨_, err, _, e⟩ | ⟨_, _, e⟩
  · obtain rfl := Host.Outcome.next.inj (e.symm.trans h)
    exact ⟨hlen, hcnt⟩
  · obtain rfl := Host.Outcome.next.inj (e.symm.trans h)
    exact ⟨hlen, hcnt⟩
  · have hf : Framed i.opcode s t := framed_of_exec h
    obtain ⟨_, hparams, _, _⟩ := hf.host
    by_cases h5 : i.opcode = 0x5#4
    · cases i <;> simp only [Instr.opcode, BitVec.reduceEq] at h5
      obtain rfl := Host.Outcome.next.inj ((runDouble2_eq _).symm.trans (e.symm.trans h))
      exact ⟨by simp [answerDouble2], Nat.sub_le _ 1⟩
    · obtain ⟨hdq, hdcnt⟩ := hf.draws h5
      rw [hdq, hdcnt, hparams]
      exact ⟨hlen, hcnt⟩

theorem inv_of_exec {i : Instr} {s t : State} (hreg : RegistersFit s) (hidle : s.phase = .idle)
    (h : exec i s = .next t) : t.Inv := by
  rcases answersFrom_of_exec hidle h with ⟨e, rfl⟩ | ⟨hok, hresp, hpair⟩
  · exact inv_raise (s := s.latch _ _ _) hreg e
  · obtain ⟨hodd, hlen, hcnt⟩ := hreg
    refine inv_of_success ⟨fun hs => ?_, drawsFit_of_exec h hlen hcnt⟩ hresp hok
    rcases hpair.seeding with ⟨_, hset⟩ | ⟨hinc, hseed⟩
    · exact hset
    · rw [hinc]
      exact hodd (hseed ▸ hs)

/-! ### The accept edge in the pace `micro` (R82) -/

/-- The opcodes that enter EXEC: RESTORE, and four that need a seeded block (R81, R82). -/
theorem exec_opcode {op : U4} (hassigned : op < 0x9#4) (hseed : ¬ (op = 0x0#4 ∨ op = 0x1#4)) (h3 : op ≠ 0x3#4)
    (h5 : op ≠ 0x5#4) :
    op = 0x8#4 ∨ needsSeed op = true ∧ (op = 0x2#4 ∨ op = 0x4#4 ∨ op = 0x6#4 ∨ op = 0x7#4) := by
  revert op
  decide

/-- R71, R170: an opcode that is not reserved is one of the nine, and the FPCONV ones need the option. -/
theorem reserved_eq_false {p : Params} {op : U4} (h : reserved p op = false) :
    op < 0x9#4 ∧ (op = 0x5#4 → p.hasFpconv = true) := by
  simp only [reserved, Bool.or_eq_false_iff, decide_eq_false_iff_not, BitVec.not_le] at h
  refine ⟨h.1, ?_⟩
  rintro rfl
  simpa using h.2

theorem inv_enterPhase {s : State} {op : U4} (a b : U64) (hreg : RegistersFit s) (hpass : dispatchError op s = none) :
    (enterPhase op (s.latch op a b)).Inv := by
  obtain ⟨hres, hseeded⟩ := dispatchError_none hpass
  obtain ⟨hassigned, hfp⟩ := reserved_eq_false hres
  have ⟨hodd, hlen, _⟩ := hreg
  unfold enterPhase
  split_ifs with h01 h3 h5
  · exact inv_iff.2 ⟨hreg, (phaseFits_seedLatched (.inl rfl)).2 h01⟩
  · exact inv_iff.2 ⟨hreg, (phaseFits_bndThr rfl).2 ⟨h3, hseeded (h3 ▸ rfl)⟩⟩
  · have hpos : 0 < s.params.d2.ndraws := Nat.lt_of_lt_of_le Nat.two_pos (D2Choice.two_le_ndraws _)
    exact inv_iff.2 ⟨⟨hodd, hlen, Nat.zero_le _⟩, (phaseFits_d2Draw rfl).2 ⟨h5, hseeded (h5 ▸ rfl), hfp h5, hpos⟩⟩
  · have hop := (exec_opcode hassigned h01 h3 h5).imp_right (And.imp_left hseeded)
    exact inv_iff.2 ⟨hreg, (phaseFits_exec rfl).2 ⟨hop, hres⟩⟩

/-! ### The micro-steps (R86) -/

theorem registersFit_storeDraw {s : State} (h : RegistersFit s) : RegistersFit s.storeDraw := by
  obtain ⟨hodd, hlen, hcnt⟩ := h
  exact ⟨hodd, (List.length_set ..).trans hlen, hcnt⟩

theorem inv_microExec {s t : State} (hreg : RegistersFit s) (h : microExec s = .next t) : t.Inv := by
  rcases microExec_next h with ⟨d, rfl⟩ | ⟨d, rfl⟩ | rfl
  · exact inv_of_success hreg rfl rfl
  · exact inv_of_success hreg rfl rfl
  · exact inv_of_success ⟨fun _ => or_one_odd _, hreg.2⟩ rfl rfl

theorem inv_microBndThr {s : State} (h : s.Inv) (hp : s.phase = .bndThr) : (microBndThr s).Inv := by
  obtain ⟨hreg, hfits⟩ := inv_iff.1 h
  obtain ⟨hop, hseeded⟩ := (phaseFits_bndThr hp).1 hfits
  unfold microBndThr
  split_ifs with hzero
  · exact inv_raise hreg _
  · exact inv_iff.2 ⟨hreg, (phaseFits_sampling (.inl rfl)).2 ⟨hop, hseeded, hzero, rfl⟩⟩

theorem inv_microBndTest {s : State} (h : s.Inv) (hp : s.phase = .bndTest) : (microBndTest s).Inv := by
  obtain ⟨hreg, hfits⟩ := inv_iff.1 h
  unfold microBndTest
  split_ifs
  · exact inv_of_success hreg rfl rfl
  · exact inv_iff.2 ⟨hreg, (phaseFits_sampling (.inl rfl)).2 ((phaseFits_sampling (.inr hp)).1 hfits)⟩

/-- A draw that is not the last leaves `dcnt` below D2_NDRAWS (R164). -/
theorem inv_microD2Draw {s : State} (h : s.Inv) (hp : s.phase = .d2Draw) : (microD2Draw s).Inv := by
  obtain ⟨hreg, hfits⟩ := inv_iff.1 h
  obtain ⟨hop, hseeded, hfp, hlt⟩ := (phaseFits_d2Draw hp).1 hfits
  obtain ⟨hodd, hlen, _⟩ := registersFit_storeDraw hreg
  unfold microD2Draw
  split_ifs with hlast
  · exact inv_of_success (registersFit_storeDraw hreg) rfl rfl
  · have hnext : s.dcnt + 1 < s.params.d2.ndraws := Nat.lt_of_le_of_ne hlt hlast
    have hfits' := (phaseFits_d2Draw (s := { s.storeDraw with dcnt := s.dcnt + 1 }) hp).2 ⟨hop, hseeded, hfp, hnext⟩
    exact inv_iff.2 ⟨⟨hodd, hlen, hnext.le⟩, hfits'⟩

theorem inv_of_microStep {s t : State} (h : s.Inv) (hstep : microStep s = .next t) : t.Inv := by
  obtain ⟨hreg, hfits⟩ := inv_iff.1 h
  cases hp : s.phase <;> simp only [microStep, hp] at hstep
  case exec => exact inv_microExec hreg hstep
  all_goals obtain rfl := Host.Outcome.next.inj hstep
  case idle | resp => exact h
  case seedZero =>
    exact inv_iff.2 ⟨hreg, (phaseFits_seedLatched (.inr rfl)).2 ((phaseFits_seedLatched (.inl hp)).1 hfits)⟩
  case seedInc =>
    have hop := (phaseFits_seedLatched (.inr hp)).1 hfits
    exact inv_iff.2 ⟨⟨fun _ => oddIncrement_odd _, hreg.2⟩, (phaseFits_seedSelected (.inl rfl)).2 ⟨hop, rfl⟩⟩
  case seedAdv1 =>
    have hselected := (phaseFits_seedSelected (.inl hp)).1 hfits
    exact inv_iff.2 ⟨hreg, (phaseFits_seedSelected (.inr (.inl rfl))).2 hselected⟩
  case seedAdd =>
    have hselected := (phaseFits_seedSelected (.inr (.inl hp))).1 hfits
    exact inv_iff.2 ⟨hreg, (phaseFits_seedSelected (.inr (.inr rfl))).2 hselected⟩
  case seedAdv2 =>
    obtain ⟨_, hinc⟩ := (phaseFits_seedSelected (.inr (.inr hp))).1 hfits
    exact inv_of_success ⟨fun _ => (congrArg (·.getLsbD 0) hinc).trans (oddIncrement_odd _), hreg.2⟩ rfl rfl
  case bndThr => exact inv_microBndThr h hp
  case bndDraw =>
    exact inv_iff.2 ⟨hreg, (phaseFits_sampling (.inr rfl)).2 ((phaseFits_sampling (.inl hp)).1 hfits)⟩
  case bndTest => exact inv_microBndTest h hp
  case d2Draw => exact inv_microD2Draw h hp

/-! ### Reset and every transition -/

/-- A reset edge leaves the block unseeded, with draws of the right number (R30, R35). -/
theorem inv_resetEdge (s : State) : s.resetEdge.Inv := by
  have hlen : s.resetEdge.dq.length = s.params.d2.ndraws := by simp [freeDraws]
  have hcnt : s.resetEdge.dcnt ≤ s.params.d2.ndraws := Nat.le_of_lt_succ (Nat.mod_lt _ (Nat.succ_pos _))
  exact inv_iff.2 ⟨⟨fun hs => absurd hs Bool.false_ne_true, hlen, hcnt⟩, phaseFits_idle rfl⟩

theorem Transition.keeps_inv {s t : State} (h : s.Inv) (htrans : Transition s t) : t.Inv := by
  obtain ⟨hreg, _⟩ := inv_iff.1 h
  cases htrans with
  | reset => exact inv_resetEdge s
  | hold => exact h
  | take => exact inv_iff.2 ⟨hreg, phaseFits_idle rfl⟩
  | serve i hidle hexec => exact inv_of_exec hreg hidle hexec
  | err op a b e => exact inv_raise (s := s.latch op a b) hreg e
  | enter op a b hpass => exact inv_enterPhase a b hreg hpass
  | micro hmicro => exact inv_of_microStep h hmicro

/-- Settles O2: State.reset is unseeded and idle, with two draws for the two its parameters ask for. -/
theorem resetMeetsInvariant : Obligations.ResetMeetsInvariant :=
  inv_iff.2 ⟨⟨fun hs => absurd hs Bool.false_ne_true, rfl, Nat.zero_le _⟩, phaseFits_idle rfl⟩

/-- Settles O46: every transition keeps the invariant, which does not look at the host's port values. -/
theorem stepKeepsInvariant : Obligations.StepKeepsInvariant := by
  unfold Obligations.StepKeepsInvariant
  intro s t h hstep
  obtain ⟨u, htrans, rfl⟩ := transition_of_step hstep
  have hu : u.Inv := htrans.keeps_inv h
  exact hu

end Sys2Proof.Machine
end

section
/-! PROOFS. What the host sees (R33, R35, R65, R85): each output is a function of a register. -/

namespace Sys2Proof.Machine

@[simp] theorem State.cmdReady_iff (s : State) : s.cmdReady = true ↔ s.phase = .idle := decide_eq_true_iff
@[simp] theorem State.rspValid_iff (s : State) : s.rspValid = true ↔ s.phase = .resp := decide_eq_true_iff
@[simp] theorem State.stBusy_iff (s : State) : s.stBusy = true ↔ s.phase ≠ .idle := decide_eq_true_iff
@[simp] theorem State.stSeeded_eq (s : State) : s.stSeeded = s.seeded := rfl
@[simp] theorem State.stFault_eq (s : State) : s.stFault = s.faultSticky := rfl

@[simp] theorem State.hostMoves_response (s : State) : s.hostMoves.response = s.response := rfl

/-- In RESP the host reads the response latches (R65). -/
theorem State.response_of_resp {s : State} (hp : s.phase = .resp) :
    s.response = some { err := s.rspErrQ, data := s.rspDataQ } :=
  if_pos (s.rspValid_iff.2 hp)

/-- Settles O4: each output by its own lemma. -/
theorem outputsFollowRegisters : Obligations.OutputsFollowRegisters := by
  unfold Obligations.OutputsFollowRegisters
  intro s
  exact ⟨s.cmdReady_iff, s.rspValid_iff, s.stSeeded_eq, s.stFault_eq, s.stBusy_iff⟩

/-- Settles O1: State.reset fixes the three registers, and the outputs follow them. -/
theorem resetLeavesIdleUnseeded : Obligations.ResetLeavesIdleUnseeded := by
  unfold Obligations.ResetLeavesIdleUnseeded
  have hidle : State.reset.phase = .idle := rfl
  have hresp : State.reset.rspValid = false := Bool.eq_false_iff.2 fun h => nomatch (State.rspValid_iff _).1 h
  have hbusy : State.reset.stBusy = false := Bool.eq_false_iff.2 fun h => (State.stBusy_iff _).1 h hidle
  exact ⟨rfl, rfl, hidle, (State.cmdReady_iff _).2 hidle, hresp, State.stSeeded_eq _, State.stFault_eq _, hbusy⟩

end Sys2Proof.Machine
end

section
/-! PROOFS. A script's responses depend on the pair, `seeded` and the parameters alone (R23, R235): two runs side by side,
from the sampler's loop up to the script. -/

namespace Sys2Proof.Machine

/-! ### Two answers a host cannot tell apart -/

/-- Two responses on offer with the same code and data, over the same pair, `seeded` and parameters. -/
structure SameResponse (u v : State) : Prop where
  stream : u.sameStream v
  phaseLeft : u.phase = .resp
  phaseRight : v.phase = .resp
  err : u.rspErrQ = v.rspErrQ
  data : u.rspDataQ = v.rspDataQ

/-- Two results with the same response, or the same stop. -/
inductive SameAnswer : Result → Result → Prop where
  | next {u v : State} (h : SameResponse u v) : SameAnswer (.next u) (.next v)
  | fault (r : Fault) : SameAnswer (.fault r) (.fault r)

theorem SameResponse.respond {s t : State} {c d : U64} (h : s.sameStream t) (hd : c = d) :
    SameResponse (s.respond c) (t.respond d) :=
  ⟨h, rfl, rfl, rfl, hd⟩

theorem SameResponse.raise {s t : State} (h : s.sameStream t) (e : Error) : SameResponse (s.raise e) (t.raise e) :=
  ⟨h, rfl, rfl, rfl, rfl⟩

/-- Two states agree on all that the effect of a command reads: the stream and the latched operands (R23, R29). -/
structure SameCall (s t : State) : Prop where
  stream : s.sameStream t
  operandA : s.aQ = t.aQ
  operandB : s.bQ = t.bQ

theorem SameCall.bound {s t : State} (h : SameCall s t) : s.bound = t.bound := congrArg trunc32 h.operandA

theorem sameStream_advance {s t : State} (h : s.sameStream t) : s.advance.sameStream t.advance := by
  obtain ⟨hstate, hinc, hseeded, hparams⟩ := h
  exact ⟨congrArg₂ lcgStep hstate hinc, hinc, hseeded, hparams⟩

theorem sameStream_output {s t : State} (h : s.sameStream t) : s.output = t.output := congrArg xshRr h.1

theorem SameCall.keepDraw {s t : State} (h : SameCall s t) : SameCall s.keepDraw t.keepDraw :=
  ⟨sameStream_advance h.stream, h.operandA, h.operandB⟩

/-- The sampler's loop makes the same draws on both sides, so it ends on both or on neither (R141). -/
theorem sampler_sameAnswer (fuel : Nat) {s t : State} (h : SameCall s t) (hthr : s.thrQ = t.thrQ) :
    SameAnswer (sampler fuel s) (sampler fuel t) := by
  induction fuel generalizing s t with
  | zero => exact .fault _
  | succ fuel ih =>
    have hdraw : s.keepDraw.rQ = t.keepDraw.rQ := sameStream_output h.stream
    have haccept : s.keepDraw.accepts ↔ t.keepDraw.accepts := by
      simp only [State.accepts, hdraw, State.keepDraw_thrQ, hthr]
    have hkept : SameCall s.keepDraw t.keepDraw := h.keepDraw
    by_cases ha : t.keepDraw.accepts
    · rw [sampler, sampler, if_pos (haccept.2 ha), if_pos ha]
      exact .next (.respond hkept.stream (by rw [hdraw, hkept.bound]))
    · rw [sampler, sampler, if_neg (mt haccept.1 ha), if_neg ha]
      exact ih hkept hthr

theorem runBounded_sameAnswer {s t : State} (h : SameCall s t) : SameAnswer (runBounded s) (runBounded t) := by
  have hbound := h.bound
  unfold runBounded
  rw [hbound]
  split_ifs
  · exact .next (.raise h.stream _)
  · exact sampler_sameAnswer samplerFuel ⟨h.stream, h.operandA, h.operandB⟩ (congrArg threshold hbound)

theorem runSeed_sameAnswer {s t : State} (h : SameCall s t) : SameAnswer (runSeed s) (runSeed t) := by
  obtain ⟨⟨_, _, _, hparams⟩, ha, hb⟩ := h
  rw [runSeed_eq, runSeed_eq]
  exact .next ⟨⟨by rw [ha, hb], congrArg oddIncrement hb, rfl, hparams⟩, rfl, rfl, rfl, rfl⟩

theorem runDouble2_sameAnswer {s t : State} (h : SameCall s t) : SameAnswer (runDouble2 s) (runDouble2 t) := by
  obtain ⟨hstate, hinc, hseeded, hparams⟩ := h.stream
  rw [runDouble2_eq, runDouble2_eq, hstate, hinc, hparams]
  exact .next (.respond ⟨rfl, rfl, hseeded, rfl⟩ rfl)

/-- No effect reads more than the stream and the latched operands (R23). -/
theorem effectOf_sameAnswer (i : Instr) {s t : State} (h : SameCall s t) :
    SameAnswer (effectOf i s) (effectOf i t) := by
  have hout : s.output = t.output := sameStream_output h.stream
  have ⟨hstate, hinc, _, hparams⟩ := h.stream
  cases i with
  | seed | autoseed => exact runSeed_sameAnswer h
  | next => exact .next (.respond (sameStream_advance h.stream) (congrArg zext64 hout))
  | nextBounded => exact runBounded_sameAnswer h
  | nextDouble => exact .next (.respond (sameStream_advance h.stream) (congrArg doubleOf hout))
  | nextDouble2 => exact runDouble2_sameAnswer h
  | rdState => exact .next (.respond h.stream hstate)
  | rdInc => exact .next (.respond h.stream hinc)
  | restore => exact .next (.respond ⟨h.operandA, congrArg (or64 · 1#64) h.operandB, rfl, hparams⟩ rfl)

/-! ### Optional results, related -/

theorem rel_map {α β γ δ : Type} {r : α → β → Prop} {q : γ → δ → Prop} {f : α → γ} {g : β → δ} {x : Option α}
    {y : Option β} (h : Option.Rel r x y) (hfg : ∀ a b, r a b → q (f a) (g b)) : Option.Rel q (x.map f) (y.map g) := by
  cases h with
  | none => exact .none
  | some hab => exact .some (hfg _ _ hab)

theorem map_eq_of_rel {α β γ : Type} {r : α → β → Prop} {f : α → γ} {g : β → γ} {x : Option α} {y : Option β}
    (h : Option.Rel r x y) (hfg : ∀ a b, r a b → f a = g b) : x.map f = y.map g := by
  cases h with
  | none => rfl
  | some hab => exact congrArg some (hfg _ _ hab)

/-! ### Commands and scripts served -/

/-- The accept edge latches the same operands where the ports show the same (R80). -/
theorem sameCall_latch {s t : State} (h : s.sameStream t) (hpins : s.pins = t.pins) (op : U4) (a b : U64) :
    SameCall (s.latch op a b) (t.latch op a b) :=
  ⟨h, congrArg (operandLatchA · op a) hpins, congrArg (operandLatchB · op b) hpins⟩

theorem exec_sameAnswer (i : Instr) {s t : State} (hs : s.phase = .idle) (ht : t.phase = .idle) (h : s.sameStream t)
    (hpins : s.pins = t.pins) : SameAnswer (exec i s) (exec i t) := by
  have ⟨_, _, hseeded, hparams⟩ := h
  have hdispatch : dispatchError i.opcode s = dispatchError i.opcode t := dispatchError_congr hparams hseeded
  have hcall := sameCall_latch h hpins i.opcode i.operandA i.operandB
  rw [exec_eq, exec_eq]
  cases he : dispatchError i.opcode t with
  | some e =>
    rw [command_error hs (hdispatch.trans he), command_error ht he]
    exact .next (.raise hcall.stream e)
  | none =>
    rw [command_runs hs (hdispatch.trans he), command_runs ht he]
    exact effectOf_sameAnswer i hcall

theorem acceptCommand_sameAnswer {s t : State} (hs : s.phase = .idle) (ht : t.phase = .idle) (h : s.sameStream t)
    (hpins : s.pins = t.pins) : SameAnswer (acceptCommand exec s) (acceptCommand exec t) := by
  unfold acceptCommand
  rw [hpins]
  cases decode t.pins.word with
  | instr i => exact exec_sameAnswer i hs ht h hpins
  | reserved op => exact .next (.raise (sameCall_latch h hpins ..).stream _)

/-- A command run whole does not write the pace, which is the model's own (R34, log entry 6). -/
theorem pace_of_acceptCommand {s t : State} (h : acceptCommand exec s = .next t) : t.pace = s.pace := by
  rcases acceptCommand_cases s with ⟨i, _, e⟩ | ⟨op, _, e⟩
  · obtain ⟨_, _, hpace, _⟩ := (framed_of_exec (e.symm.trans h)).host
    exact hpace
  · obtain rfl := Host.Outcome.next.inj (e.symm.trans h)
    rfl

/-- Two idle blocks that serve commands whole and agree on the pair, `seeded` and the parameters (R23). -/
structure Interchangeable (s t : State) : Prop where
  idleLeft : s.phase = .idle
  idleRight : t.phase = .idle
  paceLeft : s.pace = .command
  paceRight : t.pace = .command
  stream : s.sameStream t

/-- A step of an idle block on an issued command is that command run whole (R80). -/
theorem step_issued {s : State} (p : Inputs) (hidle : s.phase = .idle) (hpace : s.pace = .command) :
    step (s.driving [p.issued]) = thenHostMoves (acceptCommand exec (s.driving [p.issued])) := by
  have hedge : portEdge exec (s.driving [p.issued]) = acceptEdge exec (s.driving [p.issued]) :=
    portEdge_accept rfl hidle rfl
  rw [step, hedge, acceptEdge, State.driving_pace, hpace]

/-- One command served on two interchangeable blocks: the same response, and interchangeable blocks after it. -/
theorem serve_interchangeable (p : Inputs) {s t : State} (h : Interchangeable s t) :
    Option.Rel (fun x y => x.1 = y.1 ∧ Interchangeable x.2 y.2) (serve p s) (serve p t) := by
  have hsame : SameAnswer (acceptCommand exec (s.driving [p.issued])) (acceptCommand exec (t.driving [p.issued])) :=
    acceptCommand_sameAnswer h.idleLeft h.idleRight h.stream rfl
  rw [serve, serve, step_issued p h.idleLeft h.paceLeft, step_issued p h.idleRight h.paceRight]
  generalize hu : acceptCommand exec (s.driving [p.issued]) = x at hsame
  generalize hv : acceptCommand exec (t.driving [p.issued]) = y at hsame
  cases hsame with
  | fault => exact .none
  | @next u v hresp =>
    have hpu : u.pace = .command := (pace_of_acceptCommand hu).trans h.paceLeft
    have hpv : v.pace = .command := (pace_of_acceptCommand hv).trans h.paceRight
    simp only [thenHostMoves, State.hostMoves_response, State.response_of_resp hresp.phaseLeft,
      State.response_of_resp hresp.phaseRight, Option.map_some]
    exact .some ⟨congrArg₂ Response.mk hresp.err hresp.data, rfl, rfl, hpu, hpv, hresp.stream⟩

/-- A script is served alike, command by command, on two interchangeable blocks (R23, R235). -/
theorem runScript_interchangeable (script : List Inputs) {s t : State} (h : Interchangeable s t) :
    Option.Rel (fun x y => x.1 = y.1 ∧ Interchangeable x.2 y.2) (runScript script s) (runScript script t) := by
  induction script generalizing s t with
  | nil => exact .some ⟨rfl, h⟩
  | cons p rest ih =>
    have hserved := serve_interchangeable p h
    rw [runScript, runScript]
    generalize serve p s = x at hserved
    generalize serve p t = y at hserved
    cases hserved with
    | none => exact .none
    | some hnext =>
      obtain ⟨hresponse, hafter⟩ := hnext
      exact rel_map (ih hafter) fun _ _ ⟨hresponses, hend⟩ => ⟨congrArg₂ List.cons hresponse hresponses, hend⟩

/-- Settles O48: the two runs answer alike, by induction over the script, and end in interchangeable blocks. -/
theorem responsesDependOnPairAlone : Obligations.ResponsesDependOnPairAlone := by
  unfold Obligations.ResponsesDependOnPairAlone
  intro script s t hs ht hps hpt hstream
  have hruns := runScript_interchangeable script ⟨hs, ht, hps, hpt, hstream⟩
  refine map_eq_of_rel hruns fun x y ⟨hresponses, hend⟩ => ?_
  obtain ⟨hstate, hinc, hseeded, _⟩ := hend.stream
  simp only [hresponses, hstate, hinc, hseeded]

end Sys2Proof.Machine
end

section
/-! PROOFS. The period of the state advance (R126, R128, R148): under an odd increment 2^64 advances visit every state,
so NEXT_BOUNDED always reaches a draw it accepts. -/

namespace Sys2Proof.Machine

/-- What `n` advances add to the state: the geometric sum of the multiplier times what the first of them adds (R120). -/
theorem stateAfter_eq_add_geo (inc s : U64) (n : Nat) :
    stateAfter inc n s = s + BitVec.ofNat 64 (Laws.geo mult.toNat n) * ((mult - 1) * s + inc) := by
  induction n with
  | zero => simp [stateAfter, Laws.geo]
  | succ n ih =>
    have hgeo : BitVec.ofNat 64 (Laws.geo mult.toNat (n + 1)) =
        mult * BitVec.ofNat 64 (Laws.geo mult.toNat n) + 1 := by
      rw [Laws.geo, BitVec.ofNat_add, BitVec.ofNat_mul, BitVec.ofNat_toNat, BitVec.setWidth_eq]
      rfl
    rw [stateAfter_succ, ih, hgeo, lcgStep, add64, mul64]
    ring

/-- The first advance adds an odd number where the increment is odd: the multiplier less 1 is even. -/
theorem firstAdvance_odd {inc : U64} (hodd : inc.getLsbD 0 = true) (s : U64) :
    ((mult - 1) * s + inc).toNat % 2 = 1 := by
  have hinc : inc.toNat % 2 = 1 := by simpa [BitVec.getLsbD, Nat.testBit_zero] using hodd
  have heven : (mult - 1).toNat = 2 * 3182068111923396502 := by decide
  rw [BitVec.toNat_add, BitVec.toNat_mul, heven, Nat.mul_assoc]
  omega

/-- An odd factor does not bring a product to 0. -/
theorem mul_eq_zero_of_odd {x d : U64} (hd : d.toNat % 2 = 1) (h : x * d = 0#64) : x = 0#64 := by
  have hdvd : 2 ^ 64 ∣ x.toNat * d.toNat :=
    Nat.dvd_of_mod_eq_zero ((BitVec.toNat_mul x d).symm.trans (congrArg BitVec.toNat h))
  have hcop : Nat.Coprime (2 ^ 64) d.toNat := Nat.Coprime.pow_left _ (Nat.coprime_two_left.2 (Nat.odd_iff.2 hd))
  exact BitVec.eq_of_toNat_eq (Nat.eq_zero_of_dvd_of_lt (hcop.dvd_of_dvd_mul_right hdvd) x.isLt)

/-- A state comes back exactly after multiples of 2^64 advances (R128). -/
theorem stateAfter_eq_self_iff {inc : U64} (hodd : inc.getLsbD 0 = true) (n : Nat) (s : U64) :
    stateAfter inc n s = s ↔ 2 ^ 64 ∣ n := by
  have hgeo : BitVec.ofNat 64 (Laws.geo mult.toNat n) = 0#64 ↔ 2 ^ 64 ∣ n := by
    rw [← Laws.two_pow_dvd_geo (a := mult.toNat) (by decide), ← BitVec.toNat_inj, BitVec.toNat_ofNat]
    exact (Nat.dvd_iff_mod_eq_zero ..).symm
  rw [stateAfter_eq_add_geo, ← hgeo]
  constructor
  · intro h
    exact mul_eq_zero_of_odd (firstAdvance_odd hodd s) (add_eq_left.1 h)
  · intro h
    rw [h, BitVec.zero_mul, BitVec.add_zero]

/-- Fewer than 2^64 advances never meet a state twice. -/
theorem stateAfter_injective {inc : U64} (hodd : inc.getLsbD 0 = true) (s : U64) :
    Function.Injective fun n : Fin (2 ^ 64) => stateAfter inc n s := by
  have hle {m n : Fin (2 ^ 64)} (hmn : m ≤ n) (h : stateAfter inc m s = stateAfter inc n s) : m = n := by
    obtain ⟨k, hk⟩ := Nat.exists_eq_add_of_le (Fin.le_def.1 hmn)
    rw [hk, stateAfter_add] at h
    have hdvd : 2 ^ 64 ∣ k := (stateAfter_eq_self_iff hodd k _).1 h.symm
    have hzero : k = 0 := Nat.eq_zero_of_dvd_of_lt hdvd (Nat.lt_of_le_of_lt (hk ▸ Nat.le_add_left k m) n.isLt)
    exact Fin.ext (by rw [hk, hzero, Nat.add_zero])
  intro m n h
  rcases le_total m n with hmn | hnm
  · exact hle hmn h
  · exact (hle hnm h.symm).symm

/-- Fewer than 2^64 advances reach every state: as many states as numbers of advances, none met twice (R128). -/
theorem stateAfter_reaches {inc : U64} (hodd : inc.getLsbD 0 = true) (s u : U64) :
    ∃ n, n < 2 ^ 64 ∧ stateAfter inc n s = u := by
  have hinj := (BitVec.equivFin (m := 64)).injective.comp (stateAfter_injective hodd s)
  obtain ⟨n, hn⟩ := (Finite.surjective_of_injective hinj) (BitVec.equivFin u)
  exact ⟨n, n.isLt, BitVec.equivFin.injective hn⟩

/-! ### The sampler's loop ends (R148) -/

/-- A state whose draw is the greatest 32-bit value, which every threshold accepts. -/
theorem xshRr_greatest : xshRr 0xFFFFC0000FFFFC00#64 = BitVec.allOnes 32 := by decide

theorem exists_accepted_draw {inc : U64} (hodd : inc.getLsbD 0 = true) (s : U64) (thr : U32) :
    ∃ n, n < samplerFuel ∧ thr ≤ drawAt inc s n := by
  obtain ⟨n, hn, hreach⟩ := stateAfter_reaches hodd s 0xFFFFC0000FFFFC00#64
  refine ⟨n, hn, ?_⟩
  rw [drawAt, hreach, xshRr_greatest, BitVec.le_def, BitVec.toNat_allOnes]
  exact Nat.le_pred_of_lt thr.isLt

end Sys2Proof.Machine
end

section
/-! PROOFS. Every command is answered under the invariant (R57, R148, R196, R233), and every script served whole, one
response a command (R235). -/

namespace Sys2Proof.Machine

/-! ### Every command is answered -/

/-- NEXT_BOUNDED does not stop where the increment is odd (R148). -/
theorem runBounded_answers {s : State} (hodd : s.increment.getLsbD 0 = true) : ∃ t, runBounded s = .next t := by
  rcases runBounded_cases s with ⟨_, e⟩ | ⟨_, n, _, _, _, e⟩ | ⟨_, hreject, _⟩
  · exact ⟨_, e⟩
  · exact ⟨_, e⟩
  · obtain ⟨n, hn, haccept⟩ := exists_accepted_draw hodd s.state (threshold s.bound)
    exact absurd haccept (BitVec.not_le.2 (hreject n hn))

/-- NEXT_BOUNDED alone needs the odd increment, which a command that needs a seeded block finds (R22, R81). -/
theorem effectOf_answers {i : Instr} {s : State} (hodd : needsSeed i.opcode = true → s.increment.getLsbD 0 = true) :
    ∃ t, effectOf i s = .next t := by
  cases i with
  | nextBounded high bound b => exact runBounded_answers (hodd rfl)
  | _ => exact ⟨_, rfl⟩

theorem exec_answers {s : State} (h : s.Inv) (i : Instr) : ∃ t, exec i s = .next t := by
  rcases exec_cases i s with ⟨_, e⟩ | ⟨_, _, _, e⟩ | ⟨_, hpass, e⟩
  · exact ⟨_, e⟩
  · exact ⟨_, e⟩
  · obtain ⟨⟨hseededOdd, _⟩, _⟩ := inv_iff.1 h
    obtain ⟨_, hseeded⟩ := dispatchError_none hpass
    rw [e]
    exact effectOf_answers fun hneeds => hseededOdd (hseeded hneeds)

/-- A command word presented to an idle block is answered: the block is in RESP after it (R57 (c), R71, R83, R191). -/
theorem acceptCommand_answers {s : State} (h : s.Inv) (hidle : s.phase = .idle) :
    ∃ t, acceptCommand exec s = .next t ∧ t.phase = .resp := by
  rcases acceptCommand_cases s with ⟨i, _, e⟩ | ⟨op, _, e⟩
  · obtain ⟨t, ht⟩ := exec_answers h i
    refine ⟨t, e.trans ht, ?_⟩
    rcases answersFrom_of_exec hidle ht with ⟨_, rfl⟩ | ⟨_, hresp, _⟩
    · rfl
    · exact hresp
  · exact ⟨_, e, rfl⟩

/-! ### Every script is answered -/

/-- A block between the commands of a script: idle, serving commands whole, within the invariant. -/
structure Ready (s : State) : Prop where
  inv : s.Inv
  idle : s.phase = .idle
  pace : s.pace = .command

/-- A ready block answers the next command and is ready again once the response is taken. -/
theorem serve_answers (p : Inputs) {s : State} (h : Ready s) : ∃ r u, serve p s = some (r, u) ∧ Ready u := by
  obtain ⟨hinv, hidle, hpace⟩ := h
  have hdriven : (s.driving [p.issued]).Inv := hinv
  obtain ⟨t, ht, hresp⟩ := acceptCommand_answers hdriven hidle
  have hstep : step (s.driving [p.issued]) = .next t.hostMoves := by rw [step_issued p hidle hpace, ht]; rfl
  have hkept : t.hostMoves.Inv := stepKeepsInvariant _ _ hdriven hstep
  refine ⟨⟨t.rspErrQ, t.rspDataQ⟩, t.hostMoves.take, ?_, ?_⟩
  · rw [serve, hstep]
    simp only [State.hostMoves_response, State.response_of_resp hresp, Option.map_some]
  · exact ⟨Transition.take.keeps_inv hkept, rfl, (pace_of_acceptCommand ht).trans hpace⟩

theorem runScript_answers (script : List Inputs) {s : State} (h : Ready s) :
    ∃ rs u, runScript script s = some (rs, u) ∧ rs.length = script.length ∧ Ready u := by
  induction script generalizing s with
  | nil => exact ⟨[], s, rfl, rfl, h⟩
  | cons p rest ih =>
    obtain ⟨r, t, hserve, ht⟩ := serve_answers p h
    obtain ⟨rs, u, hrest, hlength, hu⟩ := ih ht
    refine ⟨r :: rs, u, ?_, congrArg Nat.succ hlength, hu⟩
    rw [runScript, hserve]
    simp only [hrest, Option.map_some]

/-- Settles O50: each command served from a ready block leaves a ready block, so by induction every script does. -/
theorem everyScriptIsAnswered : Obligations.EveryScriptIsAnswered := by
  unfold Obligations.EveryScriptIsAnswered
  intro script s hinv hidle hpace
  obtain ⟨rs, u, hrun, hlength, hu⟩ := runScript_answers script ⟨hinv, hidle, hpace⟩
  exact ⟨rs, u, hrun, hlength, hu.inv, hu.idle⟩

end Sys2Proof.Machine
end

section
/-! PROOFS. What a step reads of the ports (R62, R80): the entropy ports only where an AUTOSEED is accepted, and nothing
of the samples still to come. -/

namespace Sys2Proof.Machine

/-! ### The accept edge of any other opcode -/

/-- The port values with others on the entropy ports. -/
def Inputs.withEntropy (p : Inputs) (t h : U64) : Inputs := { p with entTime := t, entId := h }

@[simp] theorem Inputs.withEntropy_word (p : Inputs) (t h : U64) : (p.withEntropy t h).word = p.word := rfl
@[simp] theorem Inputs.withEntropy_rspReady (p : Inputs) (t h : U64) :
    (p.withEntropy t h).rspReady = p.rspReady := rfl

/-- The accept edge reads the entropy ports for AUTOSEED only (R80). -/
theorem latch_driving {op : U4} (hop : op ≠ 0x1#4) (a b : U64) (ps : List Inputs) (s : State) :
    (s.driving ps).latch op a b = (s.latch op a b).driving ps := by
  simp only [State.latch, operandLatchA, operandLatchB, if_neg hop]
  rfl

/-- A command other than AUTOSEED reads no port value past its own operands. -/
theorem exec_driving {i : Instr} (hop : i.opcode ≠ 0x1#4) (ps : List Inputs) (s : State) :
    exec i (s.driving ps) = onNext (·.driving ps) (exec i s) := by
  rcases exec_cases i s with ⟨hbusy, e⟩ | ⟨hidle, err, herr, e⟩ | ⟨hidle, hpass, e⟩ <;> rw [e]
  · exact exec_busy (s := s.driving ps) hbusy i
  · rw [exec_eq, command_error (s := s.driving ps) hidle herr, latch_driving hop]
    rfl
  · rw [exec_eq, command_runs (s := s.driving ps) hidle hpass, latch_driving hop]
    exact effectOf_driving ..

/-- A reserved opcode is answered under its own number (R71). -/
theorem decodePorts_reserved {op op' : U4} {a b : U64} (h : decodePorts op a b = .reserved op') : op = op' := by
  unfold decodePorts at h
  split at h
  case h_10 => exact Decoded.reserved.inj h
  all_goals exact nomatch h

theorem enterPhase_driving (op : U4) (ps : List Inputs) (s : State) :
    enterPhase op (s.driving ps) = (enterPhase op s).driving ps := by
  unfold enterPhase
  split_ifs <;> rfl

/-! ### The transitions under other entropy values -/

section
variable (s : State) (rest : List Inputs) (t h : U64)

theorem acceptCommand_withEntropy (hop : s.pins.cmdOp ≠ 0x1#4) :
    acceptCommand exec (s.driving (s.pins.withEntropy t h :: rest)) =
      onNext (·.driving (s.pins.withEntropy t h :: rest)) (acceptCommand exec s) := by
  unfold acceptCommand
  rw [State.driving_pins, Inputs.withEntropy_word]
  cases hd : decode s.pins.word with
  | instr i =>
    obtain ⟨hi, _, _⟩ := decodePorts_fields ((decode_word s.pins).symm.trans hd)
    exact exec_driving (hi ▸ hop) ..
  | reserved op =>
    have hlatch := latch_driving (decodePorts_reserved ((decode_word s.pins).symm.trans hd) ▸ hop)
    exact congrArg (fun u => Host.Outcome.next (State.raise .illegalCommand u)) (hlatch ..)

theorem microAccept_withEntropy (hop : s.pins.cmdOp ≠ 0x1#4) :
    microAccept (s.driving (s.pins.withEntropy t h :: rest)) =
      (microAccept s).driving (s.pins.withEntropy t h :: rest) := by
  have hdispatch : dispatchError s.pins.cmdOp (s.driving (s.pins.withEntropy t h :: rest)) =
      dispatchError s.pins.cmdOp s := dispatchError_congr rfl rfl
  have hports : (s.driving (s.pins.withEntropy t h :: rest)).pins.cmdOp = s.pins.cmdOp := rfl
  unfold microAccept
  rw [hports, hdispatch, latch_driving hop]
  cases dispatchError s.pins.cmdOp s with
  | some e => rfl
  | none => exact enterPhase_driving ..

theorem acceptEdge_withEntropy (hop : s.pins.cmdOp ≠ 0x1#4) :
    acceptEdge exec (s.driving (s.pins.withEntropy t h :: rest)) =
      onNext (·.driving (s.pins.withEntropy t h :: rest)) (acceptEdge exec s) := by
  unfold acceptEdge
  rw [State.driving_pace]
  cases s.pace with
  | command => exact acceptCommand_withEntropy s rest t h hop
  | micro => exact congrArg _ (microAccept_withEntropy s rest t h hop)

variable (hno : ¬ (s.pins.rst = false ∧ s.phase = .idle ∧ s.pins.cmdValid = true ∧ s.pins.cmdOp = 0x1#4))
include hno

theorem portEdge_withEntropy :
    portEdge exec (s.driving (s.pins.withEntropy t h :: rest)) =
      onNext (·.driving (s.pins.withEntropy t h :: rest)) (portEdge exec s) := by
  have hrstPin : (s.driving (s.pins.withEntropy t h :: rest)).pins.rst = s.pins.rst := rfl
  rcases portEdge_cases s with ⟨hrst, e⟩ | ⟨hrst, hidle, hvalid, e⟩ | ⟨hrst, hidle, hvalid, e⟩ | ⟨hrst, hresp, e⟩ |
    ⟨hrst, hidle, hresp, e⟩ <;> rw [e]
  · exact portEdge_reset (hrstPin.trans hrst)
  · exact portEdge_idle (hrstPin.trans hrst) hidle hvalid
  · have hop : s.pins.cmdOp ≠ 0x1#4 := fun hop => hno ⟨hrst, hidle, hvalid, hop⟩
    exact (portEdge_accept (hrstPin.trans hrst) hidle hvalid).trans (acceptEdge_withEntropy s rest t h hop)
  · refine (portEdge_resp (hrstPin.trans hrst) hresp).trans ?_
    rw [State.driving_pins, Inputs.withEntropy_rspReady]
    split_ifs <;> rfl
  · exact (portEdge_micro (hrstPin.trans hrst) hidle hresp).trans (microStep_driving ..)

/-- The step, with the host's move: of the present sample nothing is left in the next state. -/
theorem step_withEntropy :
    step (s.driving (s.pins.withEntropy t h :: rest)) = onNext (·.driving rest) (portEdge exec s) := by
  rw [step, portEdge_withEntropy s rest t h hno]
  cases portEdge exec s <;> rfl

end

/-- Settles O14: with any values on the entropy ports, the given ones too, the step is one and the same. -/
theorem entropyReadOnlyByAutoseed : Obligations.EntropyReadOnlyByAutoseed := by
  unfold Obligations.EntropyReadOnlyByAutoseed
  intro s p rest t h hno
  have hstep := fun t h => step_withEntropy (s.driving (p :: rest)) rest t h hno
  exact (hstep p.entTime p.entId).trans (hstep t h).symm

end Sys2Proof.Machine
end

section
/-! PROOFS. The codec of the command word (R66, R67, R70, R71): the decoder and the encoder undo each other, through the
three fields of the word. -/

namespace Sys2Proof

/-! ### The opcode map and the fields of a command -/

/-- The opcode map reads a command back from its own three fields; NEXT_BOUNDED's two halves make up its operand. -/
theorem decodePorts_of_fields (i : Instr) : decodePorts i.opcode i.operandA i.operandB = .instr i := by
  cases i with
  | nextBounded high bound b =>
    show Decoded.instr (.nextBounded ((high ++ bound).extractLsb' 32 32) ((high ++ bound).extractLsb' 0 32) b) = _
    rw [append_high, append_low]
  | _ => rfl

/-- Settles O5: the decoder reads the three fields of the word, which the opcode map takes back to the command. -/
theorem decodeOfEncode : Obligations.DecodeOfEncode := by
  unfold Obligations.DecodeOfEncode
  intro i
  rw [encode, decode_cmdWord, decodePorts_of_fields]

/-- Settles O6: a decoded command shows the three fields it was read from, and these make up the whole word. -/
theorem encodeOfDecode : Obligations.EncodeOfDecode := by
  unfold Obligations.EncodeOfDecode
  intro w i h
  obtain ⟨hop, ha, hb⟩ := Machine.decodePorts_fields h
  rw [encode, ← hop, ← ha, ← hb, cmdWord_fields]

/-! ### The nine opcodes and the reserved ones (R70, R71) -/

theorem Instr.opcode_lt_nine (i : Instr) : i.opcode < 0x9#4 := by
  cases i <;> simp [Instr.opcode]

/-- From 0x9 on no opcode is a command's, so the map answers the opcode itself (R71). -/
theorem decodePorts_of_nine_le {op : U4} (h : 0x9#4 ≤ op) (a b : U64) : decodePorts op a b = .reserved op := by
  cases hd : decodePorts op a b with
  | instr i =>
    obtain ⟨rfl, _, _⟩ := Machine.decodePorts_fields hd
    exact absurd i.opcode_lt_nine (BitVec.not_lt.2 h)
  | reserved op' => rw [Machine.decodePorts_reserved hd]

/-- Settles O7: the word of an opcode and two operands is decoded from these fields, row by row of the opcode map. -/
theorem opcodeMapDecodes : Obligations.OpcodeMapDecodes := by
  unfold Obligations.OpcodeMapDecodes
  intro a b
  have hword (op : U4) : decode (op ++ a ++ b) = decodePorts op a b := decode_cmdWord op a b
  have hlow : a.setWidth 32 = a.extractLsb' 0 32 := BitVec.setWidth_eq_extractLsb' (by decide)
  rw [hlow]
  exact ⟨hword _, hword _, hword _, hword _, hword _, hword _, hword _, hword _, hword _,
    fun op h => (hword op).trans (decodePorts_of_nine_le h a b)⟩

/-! ### Words as numbers (log entry 19) -/

/-- A number is read as a command exactly when it fits the word and the word decodes to it. -/
theorem decodeTableWord_eq_some_iff {nbits w : Nat} {i : Instr} :
    decodeTableWord nbits w = some i ↔ w < 2 ^ 132 ∧ decode (BitVec.ofNat 132 w) = .instr i := by
  unfold decodeTableWord
  split_ifs with h
  · rw [and_iff_right h]
    cases decode (BitVec.ofNat 132 w) <;> simp
  · rw [iff_false_right fun hw => h hw.1]
    exact nofun

/-- The number of a command's word is read as the command. -/
theorem decodeTableWord_encode {nbits w : Nat} (i : Instr) (h : w = (encode i).toNat) :
    decodeTableWord nbits w = some i := by
  subst h
  refine decodeTableWord_eq_some_iff.2 ⟨(encode i).isLt, ?_⟩
  rw [BitVec.ofNat_toNat, BitVec.setWidth_eq]
  exact decodeOfEncode i

/-- Settles O8: each listed number is the number of its command's word, and opcode 0xF is reserved. -/
theorem listedWordsDecode : Obligations.ListedWordsDecode := by
  unfold Obligations.ListedWordsDecode
  exact ⟨decodeTableWord_encode _ (by decide), decodeTableWord_encode _ (by decide),
    decodeTableWord_encode _ (by decide), decodeTableWord_encode _ (by decide),
    decodeTableWord_encode _ (by decide), decodeTableWord_encode _ (by decide), by decide⟩

end Sys2Proof
end

section
/-! PROOFS. The step at the command and response ports (R80 to R84): a command accepted in either pace, none presented, a
busy block, a response waiting. -/

namespace Sys2Proof.Machine

/-! ### A command presented to an idle block -/

section
variable {s : State} (hrst : s.pins.rst = false) (hidle : s.phase = .idle) (hvalid : s.pins.cmdValid = true)
include hrst hidle hvalid

theorem step_accept_command (hpace : s.pace = .command) : step s = thenHostMoves (acceptCommand exec s) := by
  rw [step, portEdge_accept hrst hidle hvalid, acceptEdge, hpace]

theorem step_accept_micro (hpace : s.pace = .micro) : step s = .next (microAccept s).hostMoves := by
  rw [step, portEdge_accept hrst hidle hvalid, acceptEdge, hpace]
  rfl

end

/-- Settles O10: the accept edge in the pace `command` runs the word on the port whole. -/
theorem stepRunsDecodedCommand : Obligations.StepRunsDecodedCommand := by
  unfold Obligations.StepRunsDecodedCommand
  intro s i hrst hidle hvalid hpace hd
  rw [step_accept_command hrst hidle hvalid hpace, acceptCommand, hd]

/-- The word presented is the word on the command port. -/
theorem State.presentWord_word (s : State) (w : CmdWord) : (s.presentWord w).pins.word = w := cmdWord_fields w

/-- Settles O9: the word placed stands on the port of an idle block, so O10's step runs it. -/
theorem fetchWordRunsNext : Obligations.FetchWordRunsNext := by
  unfold Obligations.FetchWordRunsNext
  intro s nbits w i h
  obtain ⟨_, hd⟩ := decodeTableWord_eq_some_iff.1 h
  exact stepRunsDecodedCommand _ i rfl rfl rfl rfl ((congrArg decode (s.presentWord_word _)).trans hd)

/-! ### The first phase (R82) -/

/-- The first phase of an assigned opcode (R82). -/
def firstPhase (op : U4) : Phase :=
  if op = 0x0#4 ∨ op = 0x1#4 then .seedZero
  else if op = 0x3#4 then .bndThr
  else if op = 0x5#4 then .d2Draw
  else .exec

/-- Past the checks the accept micro-step writes `phase`, and `dcnt` for NEXT_DOUBLE2, beside the latches. -/
theorem enterPhase_eq (op : U4) (s : State) :
    enterPhase op s = { s with phase := firstPhase op, dcnt := if op = 0x5#4 then 0 else s.dcnt } := by
  by_cases h5 : op = 0x5#4
  · subst h5
    rfl
  · rw [if_neg h5]
    unfold enterPhase firstPhase
    split_ifs <;> rfl

theorem microAccept_enters {s : State} (h : dispatchError s.pins.cmdOp s = none) :
    microAccept s = enterPhase s.pins.cmdOp (s.latch s.pins.cmdOp s.pins.cmdA s.pins.cmdB) := by
  rw [microAccept, h]

/-- The seeding commands and RESTORE run on an unseeded block too (R81). -/
theorem needsSeed_eq_false_of_mem : ∀ op ∈ [0x0#4, 0x1#4, 0x8#4], needsSeed op = false := by decide

/-- A command whose option is present passes the checks where the block is seeded or need not be (R81). -/
theorem dispatchError_wellFormed {s : State} {i : Instr} (hwf : i.wellFormed s.params = true)
    (hseed : s.seeded = true ∨ i.opcode ∈ [0x0#4, 0x1#4, 0x8#4]) : dispatchError i.opcode s = none := by
  have hres : reserved s.params i.opcode = false := by rw [reserved_opcode, hwf]; rfl
  rcases hseed with hseeded | hmem
  · exact dispatchError_seeded hres hseeded
  · exact dispatchError_free hres (needsSeed_eq_false_of_mem _ hmem)

/-- Settles O39: the command passes the checks, so the accept micro-step latches it and enters its first phase. -/
theorem acceptEntersFirstPhase : Obligations.AcceptEntersFirstPhase := by
  unfold Obligations.AcceptEntersFirstPhase
  intro s i hrst hidle hvalid hpace hd hwf hseed
  obtain ⟨hop, _, _⟩ := decodePorts_fields ((decode_word s.pins).symm.trans hd)
  have hpass : dispatchError s.pins.cmdOp s = none := hop ▸ dispatchError_wellFormed hwf hseed
  refine ⟨_, step_accept_micro hrst hidle hvalid hpace, ?_⟩
  rw [microAccept_enters hpass, enterPhase_eq]
  refine ⟨rfl, rfl, rfl, rfl, rfl, rfl, ?_, fun h5 => if_pos h5⟩
  show firstPhase s.pins.cmdOp = _
  rw [hop]
  cases i <;> rfl

/-! ### No command presented, a response waiting (R80, R84) -/

/-- Settles O12: the block stays as it is, and the host moves on. -/
theorem idleWithoutCommandHolds : Obligations.IdleWithoutCommandHolds := by
  unfold Obligations.IdleWithoutCommandHolds
  intro s hrst hidle hvalid
  exact step_next (portEdge_idle hrst hidle hvalid)

/-- Settles O13: in RESP the transition takes the response or stays, by `rsp_ready`. -/
theorem responseHeldUntilTaken : Obligations.ResponseHeldUntilTaken := by
  unfold Obligations.ResponseHeldUntilTaken
  intro s hrst hresp
  have hstep := step_next (portEdge_resp hrst hresp)
  constructor <;> intro hready <;> rw [hready] at hstep <;> exact hstep

/-! ### A busy block (R80, R223) -/

/-- A step of a busy block reads two pins of the present sample: `rst`, and `rsp_ready` in RESP. -/
theorem step_busy {s : State} (hbusy : s.phase ≠ .idle) (p : Inputs) (rest : List Inputs) :
    step (s.driving (p :: rest)) = onNext (·.driving rest)
      (if p.rst then .next s.resetEdge
      else if s.phase = .resp then .next (if p.rspReady then s.take else s)
      else microStep s) := by
  cases hrst : p.rst with
  | true => exact step_next (portEdge_reset (s := s.driving (p :: rest)) hrst)
  | false =>
    rw [if_neg Bool.false_ne_true]
    by_cases hresp : s.phase = .resp
    · rw [step, portEdge_resp (s := s.driving (p :: rest)) hrst hresp, if_pos hresp, State.driving_pins]
      cases p.rspReady <;> rfl
    · rw [step, portEdge_micro (s := s.driving (p :: rest)) hrst hbusy hresp, if_neg hresp, microStep_driving]
      cases microStep s <;> rfl

/-- Settles O11: the two pins a busy block reads agree. -/
theorem busyBlockIgnoresCommandPort : Obligations.BusyBlockIgnoresCommandPort := by
  unfold Obligations.BusyBlockIgnoresCommandPort
  intro s p q rest hbusy hrst hready
  show step (s.driving (p :: rest)) = step (s.driving (q :: rest))
  rw [step_busy hbusy, step_busy hbusy, hrst, hready]

end Sys2Proof.Machine
end

section
/-! PROOFS. A command in flight (R14, R86, R107, R152): the micro-steps that lead from a command's first phase to its
answer, and from them the agreement of the two paces. -/

namespace Sys2Proof.Machine

/-! ### One micro-step of a busy block -/

/-- The block is between accept and response and makes the micro-step of its phase (R86). -/
def BusyStep (s u : State) : Prop := s.phase ≠ .idle ∧ s.phase ≠ .resp ∧ microStep s = .next u

/-- The micro-steps that lead from one state of a command in flight to a later one. -/
abbrev BusyRun : State → State → Prop := Relation.ReflTransGen BusyStep

theorem step_of_busyStep {s u : State} (hrst : s.pins.rst = false) (h : BusyStep s u) : step s = .next u.hostMoves := by
  obtain ⟨hidle, hresp, hmicro⟩ := h
  exact step_next ((portEdge_micro hrst hidle hresp).trans hmicro)

/-- No micro-step after the accept reads a port. -/
theorem BusyStep.driving {s u : State} (h : BusyStep s u) (ps : List Inputs) :
    BusyStep (s.driving ps) (u.driving ps) := by
  obtain ⟨hidle, hresp, hmicro⟩ := h
  exact ⟨hidle, hresp, by rw [microStep_driving, hmicro]; rfl⟩

/-! The micro-step of each phase. -/

section
variable {s : State}

theorem busyStep_seedZero (hp : s.phase = .seedZero) : BusyStep s (microSeedZero s) := by simp [BusyStep, microStep, hp]
theorem busyStep_seedInc (hp : s.phase = .seedInc) : BusyStep s (microSeedInc s) := by simp [BusyStep, microStep, hp]
theorem busyStep_seedAdv1 (hp : s.phase = .seedAdv1) : BusyStep s (microSeedAdv1 s) := by simp [BusyStep, microStep, hp]
theorem busyStep_seedAdd (hp : s.phase = .seedAdd) : BusyStep s (microSeedAdd s) := by simp [BusyStep, microStep, hp]
theorem busyStep_seedAdv2 (hp : s.phase = .seedAdv2) : BusyStep s (microSeedAdv2 s) := by simp [BusyStep, microStep, hp]
theorem busyStep_bndThr (hp : s.phase = .bndThr) : BusyStep s (microBndThr s) := by simp [BusyStep, microStep, hp]
theorem busyStep_bndDraw (hp : s.phase = .bndDraw) : BusyStep s (microBndDraw s) := by simp [BusyStep, microStep, hp]
theorem busyStep_bndTest (hp : s.phase = .bndTest) : BusyStep s (microBndTest s) := by simp [BusyStep, microStep, hp]
theorem busyStep_d2Draw (hp : s.phase = .d2Draw) : BusyStep s (microD2Draw s) := by simp [BusyStep, microStep, hp]

theorem busyStep_exec {u : State} (hp : s.phase = .exec) (h : microExec s = .next u) : BusyStep s u := by
  simp [BusyStep, microStep, hp, h]

end

/-! ### The micro-steps of each command -/

/-- SEED and AUTOSEED: the five micro-steps are the five steps of R100 (R107). -/
theorem busyRun_runSeed {s t : State} (h : runSeed s = .next t) : BusyRun { s with phase := .seedZero } t := by
  obtain rfl := Host.Outcome.next.inj h
  exact .head (busyStep_seedZero rfl) <| .head (busyStep_seedInc rfl) <| .head (busyStep_seedAdv1 rfl) <|
    .head (busyStep_seedAdd rfl) <| .single (busyStep_seedAdv2 rfl)

/-- The sampler's loop: a draw and a test for each time round (R152). -/
theorem busyRun_sampler {fuel : Nat} {s t : State} (h : sampler fuel s = .next t) :
    BusyRun { s with phase := .bndDraw } t := by
  induction fuel generalizing s with
  | zero => exact nomatch h
  | succ fuel ih =>
    have htest : BusyStep { s.keepDraw with phase := .bndTest }
        (if s.keepDraw.accepts then answerDraw s.keepDraw else { s.keepDraw with phase := .bndDraw }) :=
      busyStep_bndTest rfl
    refine .head (busyStep_bndDraw rfl) (.head htest ?_)
    rw [sampler] at h
    split_ifs at h ⊢
    · obtain rfl := Host.Outcome.next.inj h
      exact .refl
    · exact ih h

/-- NEXT_BOUNDED: the bound's check and the threshold, then the loop (R143, R152). -/
theorem busyRun_runBounded {s t : State} (h : runBounded s = .next t) : BusyRun { s with phase := .bndThr } t := by
  have hthr : BusyStep { s with phase := .bndThr }
      (if s.bound = 0#32 then s.raise .boundZero else { s.keepThreshold with phase := .bndDraw }) :=
    busyStep_bndThr rfl
  refine .head hthr ?_
  rw [runBounded] at h
  split_ifs at h ⊢
  · obtain rfl := Host.Outcome.next.inj h
    exact .refl
  · exact busyRun_sampler h

/-- Storing at an index keeps what stands before it, and puts the new element next (R164). -/
theorem take_set_succ {l : List U32} {k : Nat} (hk : k < l.length) (x : U32) :
    (l.set k x).take (k + 1) = l.take k ++ [x] := by
  rw [List.take_add_one, List.take_set_of_le (Nat.le_refl k), List.getElem?_set_self hk]
  rfl

/-- The draws depend on the pair alone (R23). -/
theorem draws_congr {s t : State} (hstate : s.state = t.state) (hinc : s.increment = t.increment) (n : Nat) :
    s.draws n = t.draws n := by
  rw [State.draws_eq, State.draws_eq, hstate, hinc]

/-- The draws of NEXT_DOUBLE2 still to make, `left + 1` of them, fill `dq` from `dcnt` on (R164). -/
theorem busyRun_draws (left : Nat) {s : State} (hp : s.phase = .d2Draw) (hlen : s.dq.length = s.params.d2.ndraws)
    (hleft : s.dcnt + (left + 1) = s.params.d2.ndraws) :
    BusyRun s (answerDouble2 { s with
      state := stateAfter s.increment (left + 1) s.state, dq := s.dq.take s.dcnt ++ s.draws (left + 1),
      dcnt := s.params.d2.ndraws - 1 }) := by
  induction left generalizing s with
  | zero =>
    have hstored : s.storeDraw.dq.take (s.dcnt + 1) = s.dq.take s.dcnt ++ s.draws 1 := take_set_succ (by omega) _
    have hfull : s.storeDraw.dq.length ≤ s.dcnt + 1 := by simp [hlen, hleft]
    refine .head (busyStep_d2Draw hp) ?_
    rw [microD2Draw, if_pos hleft, ← hstored, List.take_of_length_le hfull, ← hleft]
    exact .refl
  | succ left ih =>
    have hstored : s.storeDraw.dq.take (s.dcnt + 1) = s.dq.take s.dcnt ++ [s.output] := take_set_succ (by omega) _
    have hdraws : s.draws (left + 2) = s.output :: State.draws (left + 1) { s.storeDraw with dcnt := s.dcnt + 1 } :=
      congrArg (s.output :: ·) (draws_congr (by rfl) (by rfl) _)
    have hrest := ih (s := { s.storeDraw with dcnt := s.dcnt + 1 }) hp (by simp [hlen]) (by simp; omega)
    refine .head (busyStep_d2Draw hp) ?_
    rw [microD2Draw, if_neg (by omega), hdraws, List.append_cons, ← hstored]
    exact hrest

/-- NEXT_DOUBLE2: from `dcnt = 0` the draws fill all of `dq` (R162, R164). -/
theorem busyRun_runDouble2 {s t : State} (hlen : s.dq.length = s.params.d2.ndraws) (h : runDouble2 s = .next t) :
    BusyRun { s with phase := .d2Draw, dcnt := 0 } t := by
  have hdraws : s.draws s.params.d2.ndraws = State.draws s.params.d2.ndraws { s with phase := .d2Draw, dcnt := 0 } :=
    draws_congr (by rfl) (by rfl) _
  rw [runDouble2_eq, ← State.draws_eq, hdraws] at h
  obtain rfl := Host.Outcome.next.inj h
  have hpos : 1 ≤ s.params.d2.ndraws := Nat.le_of_succ_le (D2Choice.two_le_ndraws _)
  obtain ⟨left, hleft⟩ := Nat.exists_eq_add_of_le' hpos
  have hrun := busyRun_draws left (s := { s with phase := .d2Draw, dcnt := 0 }) rfl hlen (by simp [hleft])
  rw [← hleft] at hrun
  exact hrun

/-- In EXEC a command's one micro-step is its big-step rule (R125, R163, R183 to R185). -/
theorem microExec_eq_effectOf {i : Instr} {s : State} (hexec : firstPhase i.opcode = .exec) (hop : s.opQ = i.opcode) :
    microExec s = effectOf i s := by
  rw [microExec, hop]
  cases i with
  | seed | autoseed | nextBounded | nextDouble2 => exact absurd hexec (by simp [firstPhase, Instr.opcode])
  | next | nextDouble | rdState | rdInc | restore => rfl

/-- From its first phase every command's micro-steps lead to the state of its big-step rule (R82, R86). -/
theorem busyRun_effectOf {i : Instr} {s t : State} (hop : s.opQ = i.opcode) (hlen : s.dq.length = s.params.d2.ndraws)
    (h : effectOf i s = .next t) : BusyRun (enterPhase i.opcode s) t := by
  cases i with
  | seed | autoseed => exact busyRun_runSeed h
  | nextBounded => exact busyRun_runBounded h
  | nextDouble2 => exact busyRun_runDouble2 hlen h
  | next | nextDouble | rdState | rdInc | restore =>
    exact .single (busyStep_exec rfl ((microExec_eq_effectOf rfl hop).trans h))

/-! ### The host's view of a run (R80, R84) -/

/-- Where no sample shows reset, the present one does not; past the end of the list nothing is driven. -/
theorem pins_rst_eq_false {s : State} (hrst : ∀ p ∈ s.inputs, p.rst = false) : s.pins.rst = false := by
  unfold State.pins
  cases hports : s.inputs with
  | nil => rfl
  | cons p rest => exact hrst p (hports ▸ List.mem_cons_self)

/-- Steps whose port samples show no reset make the micro-steps one by one, busy until the last has been made. -/
theorem run_of_busyRun {s t : State} (h : BusyRun s t) (ports : List Inputs) (hrst : ∀ p ∈ ports, p.rst = false) :
    ∃ n, Host.Core.run Sys2Proof.core n (s.driving ports) = .next (t.driving (ports.drop n)) ∧
      ∀ (m : Nat) (u : State), m < n → Host.Core.run Sys2Proof.core m (s.driving ports) = .next u →
        u.phase ≠ .idle ∧ u.phase ≠ .resp := by
  induction h using Relation.ReflTransGen.head_induction_on generalizing ports with
  | refl => exact ⟨0, rfl, fun m u hm => absurd hm (Nat.not_lt_zero m)⟩
  | @head s v hbusy _ ih =>
    have hstep : step (s.driving ports) = .next (v.driving ports.tail) :=
      step_of_busyStep (pins_rst_eq_false hrst) (hbusy.driving ports)
    obtain ⟨n, hrun, hbetween⟩ := ih ports.tail fun p hp => hrst p (List.mem_of_mem_tail hp)
    refine ⟨n + 1, ?_, fun m u hm hu => ?_⟩
    · rw [run_of_step n hstep, hrun, List.drop_tail]
    · cases m with
      | zero =>
        obtain rfl := Host.Outcome.next.inj hu
        obtain ⟨hidle, hresp, _⟩ := hbusy
        exact ⟨hidle, hresp⟩
      | succ m => exact hbetween m u (Nat.lt_of_succ_lt_succ hm) ((run_of_step m hstep).symm.trans hu)

/-- The accept micro-step writes no port. -/
theorem inputs_microAccept (s : State) : (microAccept s).inputs = s.inputs := by
  unfold microAccept
  cases dispatchError s.pins.cmdOp s with
  | some e => rfl
  | none => simp only [enterPhase_eq, State.latch_inputs]

/-- From the accept micro-step on, a run leads to the state exec answers (R81, R82). -/
theorem busyRun_microAccept {s t : State} {i : Instr} (hlen : s.dq.length = s.params.d2.ndraws)
    (hidle : s.phase = .idle) (hd : decode s.pins.word = .instr i) (h : exec i s = .next t) :
    BusyRun (microAccept s) t := by
  obtain ⟨hop, ha, hb⟩ := decodePorts_fields ((decode_word s.pins).symm.trans hd)
  rw [microAccept, hop, ha, hb]
  rcases exec_cases i s with ⟨hbusy, _⟩ | ⟨_, err, herr, e⟩ | ⟨_, hpass, e⟩
  · exact absurd hidle hbusy
  · rw [herr, Host.Outcome.next.inj (h.symm.trans e)]
  · rw [hpass]
    exact busyRun_effectOf rfl hlen (e.symm.trans h)

/-- Settles O44: the accept micro-step, then the micro-steps of the command in flight, which use up the port samples
one by one (log entry 5). -/
theorem microStepsRefineCommand : Obligations.MicroStepsRefineCommand := by
  unfold Obligations.MicroStepsRefineCommand
  intro s t i hinv hidle hpace hvalid hrst hd h
  obtain ⟨⟨_, hlen, _⟩, _⟩ := inv_iff.1 hinv
  have haccept : step s = .next ((microAccept s).driving s.inputs.tail) := by
    rw [step_accept_micro (pins_rst_eq_false hrst) hidle hvalid hpace, State.hostMoves, inputs_microAccept]
    rfl
  obtain ⟨n, hrun, hbetween⟩ := run_of_busyRun (busyRun_microAccept hlen hidle hd h) s.inputs.tail fun p hp =>
    hrst p (List.mem_of_mem_tail hp)
  refine ⟨n + 1, ?_, fun m u hpos hm hu => ?_⟩
  · rw [run_of_step n haccept, hrun, List.drop_tail]
    rfl
  · obtain ⟨m, rfl⟩ := Nat.exists_eq_add_one.2 hpos
    exact hbetween m u (Nat.lt_of_succ_lt_succ hm) ((run_of_step m haccept).symm.trans hu)

end Sys2Proof.Machine
end

section
/-! PROOFS. SEED and AUTOSEED (R100 to R112): the five micro-steps, the closed form, and what the pair does not depend
on. -/

namespace Sys2Proof.Machine

/-- Settles O40: each phase's micro-step, then the host's move. -/
theorem seedingMicroSteps : Obligations.SeedingMicroSteps := by
  unfold Obligations.SeedingMicroSteps
  intro s hrst
  have hstep {u : State} (h : BusyStep s u) : step s = .next u.hostMoves := step_of_busyStep hrst h
  exact ⟨fun hp => hstep (busyStep_seedZero hp), fun hp => hstep (busyStep_seedInc hp),
    fun hp => hstep (busyStep_seedAdv1 hp), fun hp => hstep (busyStep_seedAdd hp),
    fun hp => hstep (busyStep_seedAdv2 hp)⟩

/-! ### The stream selector as a number (R100, R108) -/

/-- Bit 0 of a shifted number is 0, so setting it adds 1. -/
theorem shiftLeft_one_or_one (x : U64) : x <<< 1 ||| 1#64 = x <<< 1 + 1#64 := by
  refine (BitVec.add_eq_or_of_and_eq_zero _ _ ?_).symm
  ext i hi
  cases i with
  | zero => simp
  | succ i => simp

theorem shiftLeft_one_add_one (x : U64) : x <<< 1 + 1#64 = BitVec.ofNat 64 (2 * x.toNat + 1) := by
  refine BitVec.eq_of_toNat_eq ?_
  simp only [BitVec.toNat_add, BitVec.toNat_shiftLeft, BitVec.toNat_ofNat, Nat.shiftLeft_eq]
  omega

theorem oddIncrement_eq (q : U64) : oddIncrement q = BitVec.ofNat 64 (2 * q.toNat + 1) :=
  (shiftLeft_one_or_one q).trans (shiftLeft_one_add_one q)

theorem autoSequence_eq (h : U64) : autoSequence h = BitVec.ofNat 64 (2 * h.toNat + 1) := shiftLeft_one_add_one h

/-- AUTOSEED's stream selector (R109). -/
theorem oddIncrement_autoSequence (h : U64) : oddIncrement (autoSequence h) = BitVec.ofNat 64 (4 * h.toNat + 3) := by
  rw [oddIncrement_eq, autoSequence_eq]
  refine BitVec.eq_of_toNat_eq ?_
  simp only [BitVec.toNat_ofNat]
  omega

/-! ### The closed form (R101, R109) -/

/-- The seeding commands pass the checks in every state (R81, R196). -/
theorem dispatchError_seeding {op : U4} (hop : op = 0x0#4 ∨ op = 0x1#4) (s : State) : dispatchError op s = none := by
  rcases hop with rfl | rfl <;> exact dispatchError_free (by simp [reserved]) (by decide)

/-- Settles O16: SEED passes the checks and takes its five steps on the operands latched. -/
theorem seedCompletes : Obligations.SeedCompletes := by
  unfold Obligations.SeedCompletes
  intro a b s hidle
  rw [exec_seed, command_runs hidle (dispatchError_seeding (.inl rfl) s), runSeed_eq]
  rfl

/-- Settles O17: AUTOSEED is SEED's effect on the two values latched from the entropy ports. -/
theorem autoseedCompletes : Obligations.AutoseedCompletes := by
  unfold Obligations.AutoseedCompletes
  intro a b s hidle
  have hb : (s.latch 0x1#4 a b).bQ = autoSequence s.pins.entId := rfl
  rw [exec_autoseed, command_runs hidle (dispatchError_seeding (.inr rfl) s), runSeed_eq, hb,
    oddIncrement_autoSequence, ← autoSequence_eq]
  rfl

/-! ### What the pair does not depend on (R110 to R112) -/

/-- Settles O19: the closed form names the operands only, and keeps `fault_sticky`. -/
theorem reseedingForgetsThePair : Obligations.ReseedingForgetsThePair := by
  unfold Obligations.ReseedingForgetsThePair
  intro a b s t hs ht
  exact ⟨_, _, seedCompletes a b s hs, seedCompletes a b t ht, rfl, rfl, rfl⟩

/-- The shift of R100 drops bit 63 of the sequence number. -/
theorem oddIncrement_add_topBit (q : U64) : oddIncrement (q + 0x8000000000000000#64) = oddIncrement q := by
  have hout : 0x8000000000000000#64 <<< 1 = 0#64 := by decide
  rw [oddIncrement, shl64, BitVec.shiftLeft_add_distrib, hout, BitVec.add_zero, oddIncrement]

/-- Settles O18: the closed form reads the sequence number through its stream selector; a busy block reads neither. -/
theorem seedIgnoresTopSequenceBit : Obligations.SeedIgnoresTopSequenceBit := by
  unfold Obligations.SeedIgnoresTopSequenceBit
  intro a b s t u ht hu
  by_cases hidle : s.phase = .idle
  · have hinc : (b + 0x8000000000000000#64) <<< 1 ||| 1#64 = b <<< 1 ||| 1#64 := oddIncrement_add_topBit b
    rw [seedCompletes _ _ _ hidle] at ht hu
    obtain rfl := Host.Outcome.next.inj ht
    obtain rfl := Host.Outcome.next.inj hu
    simp only [hinc, and_self]
  · obtain rfl := Host.Outcome.next.inj ((exec_busy hidle _).symm.trans ht)
    obtain rfl := Host.Outcome.next.inj ((exec_busy hidle _).symm.trans hu)
    exact ⟨rfl, rfl⟩

/-- Identities equal mod 2^62 give one stream selector (R110). -/
theorem autoseedIncrement_congr {m n : Nat} (h : m % 2 ^ 62 = n % 2 ^ 62) :
    BitVec.ofNat 64 (4 * m + 3) = BitVec.ofNat 64 (4 * n + 3) := by
  refine BitVec.eq_of_toNat_eq ?_
  simp only [BitVec.toNat_ofNat]
  omega

/-- Settles O20: the closed form reads the identity through its stream selector. -/
theorem autoseedCollides : Obligations.AutoseedCollides := by
  unfold Obligations.AutoseedCollides
  intro a b a' b' s t u v hs ht htime hid hu hv
  rw [autoseedCompletes a b s hs, htime, autoseedIncrement_congr hid] at hu
  rw [autoseedCompletes a' b' t ht] at hv
  obtain rfl := Host.Outcome.next.inj hu
  obtain rfl := Host.Outcome.next.inj hv
  exact ⟨rfl, rfl⟩

end Sys2Proof.Machine
end

section
/-! PROOFS. The state advance as arithmetic (R120, R126, R128) and NEXT with the commands that share its phase EXEC
(R123 to R125, R163, R183 to R185). -/

namespace Sys2Proof.Machine

/-! ### The state advance -/

/-- Settles O51: both operations are mod 2^64, so the product need not be reduced before the sum. -/
theorem lcgStepIsModular : Obligations.LcgStepIsModular := by
  unfold Obligations.LcgStepIsModular
  intro s inc
  rw [lcgStep, BitVec.toNat_add, BitVec.toNat_mul, Nat.mod_add_mod, Nat.mul_comm]
  rfl

/-- The multiplier is odd, so no two states go to one. -/
theorem lcgStep_injective (inc : U64) : Function.Injective fun s : U64 => lcgStep s inc := by
  intro s t h
  have hmul : mult * s = mult * t := add_right_cancel h
  have hdiff : (s - t) * mult = 0#64 := by
    rw [sub_mul, mul_comm s, mul_comm t, hmul]
    exact sub_self _
  exact sub_eq_zero.1 (mul_eq_zero_of_odd (by decide) hdiff)

/-- Settles O52: an injective map of a finite set into itself is onto. -/
theorem lcgStepIsBijective : Obligations.LcgStepIsBijective := by
  unfold Obligations.LcgStepIsBijective
  exact fun inc => Finite.injective_iff_bijective.1 (lcgStep_injective inc)

/-- Under an odd increment only the number of advances mod 2^64 counts (R128). -/
theorem stateAfter_mod {inc : U64} (hodd : inc.getLsbD 0 = true) (n : Nat) (s : U64) :
    stateAfter inc (n % 2 ^ 64) s = stateAfter inc n s := by
  have hcycle : stateAfter inc (2 ^ 64 * (n / 2 ^ 64)) s = s :=
    (stateAfter_eq_self_iff hodd _ s).2 (Nat.dvd_mul_right ..)
  calc stateAfter inc (n % 2 ^ 64) s
      = stateAfter inc (2 ^ 64 * (n / 2 ^ 64) + n % 2 ^ 64) s := by rw [stateAfter_add, hcycle]
    _ = stateAfter inc n s := by rw [Nat.div_add_mod]

/-- Settles O53: fewer than 2^64 advances reach every state, each of them by one number of advances only. -/
theorem lcgHasFullPeriod : Obligations.LcgHasFullPeriod := by
  unfold Obligations.LcgHasFullPeriod
  intro inc s hodd
  refine ⟨stateAfter_reaches hodd s, fun m n => ?_⟩
  have hlt (k : Nat) : k % 2 ^ 64 < 2 ^ 64 := Nat.mod_lt k (Nat.two_pow_pos 64)
  rw [← stateAfter_mod hodd m, ← stateAfter_mod hodd n]
  constructor
  · intro h
    have hfin : (⟨m % 2 ^ 64, hlt m⟩ : Fin (2 ^ 64)) = ⟨n % 2 ^ 64, hlt n⟩ := stateAfter_injective hodd s h
    exact Fin.mk.inj hfin
  · intro h
    rw [h]

/-! ### NEXT, and the micro-step of EXEC -/

/-- Settles O21: NEXT passes the checks on a seeded block and makes one draw. -/
theorem nextCompletes : Obligations.NextCompletes := by
  unfold Obligations.NextCompletes
  intro a b s hidle hseeded
  rw [exec_next, command_runs hidle (dispatchError_seeded (by simp [reserved]) hseeded)]
  rfl

/-- Settles O41: in EXEC the step is the big-step rule of the command in `op_q`, then the host's move. -/
theorem execPhaseMicroSteps : Obligations.ExecPhaseMicroSteps := by
  unfold Obligations.ExecPhaseMicroSteps
  intro s hrst hp
  have hstep (i : Instr) {u : State} (hexec : firstPhase i.opcode = .exec) (hu : effectOf i s = .next u)
      (hop : s.opQ = i.opcode) : step s = .next u.hostMoves :=
    step_of_busyStep hrst (busyStep_exec hp ((microExec_eq_effectOf hexec hop).trans hu))
  exact ⟨hstep (.next 0 0) rfl rfl, hstep (.nextDouble 0 0) rfl rfl, hstep (.rdState 0 0) rfl rfl,
    hstep (.rdInc 0 0) rfl rfl, hstep (.restore 0 0) rfl rfl⟩

end Sys2Proof.Machine
end

section
/-! PROOFS. The output permutation bit by bit (R121, R122), and the count of the states behind an output (R127). -/

namespace Sys2Proof.Machine

/-! ### The bits of the permutation -/

theorem xorshifted_getLsbD {i : Nat} (hi : i < 32) (s : U64) :
    (xorshifted s).getLsbD i = (s.getLsbD (i + 27) ^^ s.getLsbD (i + 45)) := by
  rw [xorshifted, BitVec.getLsbD_setWidth, BitVec.getLsbD_ushiftRight, BitVec.getLsbD_xor,
    BitVec.getLsbD_ushiftRight, Bool.xor_comm, Nat.add_comm 27 i, show 18 + (i + 27) = i + 45 by omega]
  simp [hi]

theorem rotationAmount_getLsbD {i : Nat} (hi : i < 5) (s : U64) :
    (rotationAmount s).getLsbD i = s.getLsbD (i + 59) := by
  rw [rotationAmount, BitVec.getLsbD_setWidth, BitVec.getLsbD_ushiftRight, Nat.add_comm 59 i]
  simp [hi]

/-- Settles O54: the two fields of the permutation bit by bit; the rotation is the permutation's definition. -/
theorem permutationReadsBits : Obligations.PermutationReadsBits := by
  unfold Obligations.PermutationReadsBits
  exact fun s => ⟨fun _ hi => xorshifted_getLsbD hi s, fun _ hi => rotationAmount_getLsbD hi s, rfl⟩

/-- The amount of the left shift of R122, 0 for the rotation by 0. -/
theorem toNat_leftAmount (n : U5) : (and32 (neg32 (n.setWidth 32)) 31#32).toNat = (32 - n.toNat) % 32 := by
  have hn : n.toNat < 32 := n.isLt
  have hmask : (31#32).toNat = 2 ^ 5 - 1 := rfl
  rw [BitVec.toNat_and, hmask, Nat.and_two_pow_sub_one_eq_mod, BitVec.toNat_neg, BitVec.toNat_setWidth]
  omega

theorem ror32_getLsbD (v : U32) (n : U5) {i : Nat} (hi : i < 32) :
    (ror32 v n).getLsbD i = v.getLsbD ((i + n.toNat) % 32) := by
  have hn : n.toNat < 32 := n.isLt
  rw [ror32, BitVec.getLsbD_or, BitVec.getLsbD_ushiftRight, BitVec.getLsbD_shiftLeft, toNat_leftAmount,
    Nat.add_comm n.toNat i]
  by_cases hzero : n.toNat = 0
  · simp [hzero, hi, Nat.mod_eq_of_lt hi]
  · rw [Nat.mod_eq_of_lt (show 32 - n.toNat < 32 by omega)]
    by_cases hlow : i + n.toNat < 32
    · simp [Nat.mod_eq_of_lt hlow, show i < 32 - n.toNat by omega]
    · have hbit : i - (32 - n.toNat) = (i + n.toNat) % 32 := by omega
      simp [BitVec.getLsbD_of_ge v _ (Nat.not_lt.1 hlow), hi, show ¬ i < 32 - n.toNat by omega, hbit]

/-- Settles O55: a bit comes from the right shift where it stays inside the word, else from the left shift. -/
theorem rotationMovesBits : Obligations.RotationMovesBits := by
  unfold Obligations.RotationMovesBits
  exact fun v n _ hi => ror32_getLsbD v n hi

/-! ### The states behind an output (R127) -/

/-- Bit `i` of the word is bit `(i - n) mod 32` of the rotated word, so a rotation loses nothing. -/
theorem ror32_injective (n : U5) : Function.Injective fun v : U32 => ror32 v n := by
  intro v w h
  have hn : n.toNat < 32 := n.isLt
  refine BitVec.eq_of_getLsbD_eq fun i hi => ?_
  have hfrom (x : U32) : x.getLsbD i = (ror32 x n).getLsbD ((i + (32 - n.toNat)) % 32) := by
    rw [ror32_getLsbD x n (Nat.mod_lt _ (by omega)), show ((i + (32 - n.toNat)) % 32 + n.toNat) % 32 = i by omega]
  rw [hfrom v, hfrom w]
  exact congrArg (BitVec.getLsbD · _) h

/-- What an output does not fix of its state: the rotation and the 27 bits the permutation drops. -/
def freeBits (s : U64) : U5 × BitVec 27 := (rotationAmount s, s.setWidth 27)

/-- From the top down, each bit of a state is a bit of the rotation, a bit of `xorshifted` and a higher one, or one of the
27 lowest. -/
theorem getLsbD_eq_of_fields {s t : U64} (hrot : rotationAmount s = rotationAmount t)
    (hxor : xorshifted s = xorshifted t) (hlow : s.setWidth 27 = t.setWidth 27) (i : Nat) :
    s.getLsbD i = t.getLsbD i := by
  by_cases hout : 64 ≤ i
  · rw [BitVec.getLsbD_of_ge s i hout, BitVec.getLsbD_of_ge t i hout]
  by_cases htop : 59 ≤ i
  · have h := congrArg (BitVec.getLsbD · (i - 59)) hrot
    simpa only [rotationAmount_getLsbD (show i - 59 < 5 by omega), Nat.sub_add_cancel htop] using h
  by_cases hmid : 27 ≤ i
  · have h := congrArg (BitVec.getLsbD · (i - 27)) hxor
    have hhigher : s.getLsbD (i - 27 + 45) = t.getLsbD (i - 27 + 45) := getLsbD_eq_of_fields hrot hxor hlow _
    simpa only [xorshifted_getLsbD (show i - 27 < 32 by omega), Nat.sub_add_cancel hmid, hhigher,
      Bool.xor_left_inj] using h
  · have h := congrArg (BitVec.getLsbD · i) hlow
    simpa [show i < 27 by omega] using h
termination_by 64 - i

/-- An output and its free bits fix the state. -/
theorem output_freeBits_injective : Function.Injective fun s : U64 => (xshRr s, freeBits s) := by
  intro s t h
  obtain ⟨hout, hfree⟩ := Prod.mk.inj h
  obtain ⟨hrot, hlow⟩ := Prod.mk.inj hfree
  have hxor : xorshifted s = xorshifted t := ror32_injective (rotationAmount s) (hout.trans (by rw [xshRr, hrot]))
  exact BitVec.eq_of_getLsbD_eq fun i _ => getLsbD_eq_of_fields hrot hxor hlow i

theorem natCard_bitVec (w : Nat) : Nat.card (BitVec w) = 2 ^ w := by
  rw [Nat.card_congr BitVec.equivFin.toEquiv, Nat.card_fin]

/-- There are as many states as outputs with free bits, so each such pair has one state. -/
theorem output_freeBits_bijective : Function.Bijective fun s : U64 => (xshRr s, freeBits s) :=
  (Nat.bijective_iff_injective_and_card _).2
    ⟨output_freeBits_injective, by simp only [Nat.card_prod, natCard_bitVec]; norm_num⟩

/-- The states behind an output are the values of the free bits. -/
theorem freeBits_bijective_fiber (r : U32) :
    Function.Bijective fun s : { s : U64 // xshRr s = r } => freeBits s := by
  constructor
  · intro s t h
    exact Subtype.ext (output_freeBits_injective (Prod.ext (s.2.trans t.2.symm) h))
  · intro f
    obtain ⟨s, hs⟩ := output_freeBits_bijective.surjective (r, f)
    obtain ⟨hout, hfree⟩ := Prod.mk.inj hs
    exact ⟨⟨s, hout⟩, hfree⟩

/-- Settles O56: an output leaves 5 + 27 bits of its state free. -/
theorem permutationIsEvenToOne : Obligations.PermutationIsEvenToOne := by
  unfold Obligations.PermutationIsEvenToOne
  intro r
  rw [Nat.card_eq_of_bijective _ (freeBits_bijective_fiber r), Nat.card_prod, natCard_bitVec, natCard_bitVec]
  norm_num

end Sys2Proof.Machine
end

section
/-! PROOFS. The sampler where no draw is ever accepted (R141, R148): the fault of the pace `command` is an endless loop of
micro-steps (log entry 8). -/

namespace Sys2Proof.Machine

/-! ### The draws of an endless run -/

theorem stateAfter_eq_iterate (inc : U64) (n : Nat) (s : U64) : stateAfter inc n s = (lcgStep · inc)^[n] s := by
  induction n generalizing s with
  | zero => rfl
  | succ n ih => exact ih _

/-- Whatever the increment, the states come round within 2^64 advances: the advance is injective, so every state lies on a
cycle, and no cycle has more members than there are states (R126 (f)). -/
theorem exists_stateAfter_eq_lt (inc s : U64) (n : Nat) :
    ∃ m, m < samplerFuel ∧ stateAfter inc m s = stateAfter inc n s := by
  have hpos : 0 < Function.minimalPeriod (lcgStep · inc) s :=
    Function.minimalPeriod_pos_of_mem_periodicPts ((lcgStep_injective inc).mem_periodicPts s)
  have hle : Function.minimalPeriod (lcgStep · inc) s ≤ samplerFuel :=
    Function.minimalPeriod_le_card.trans_eq (Nat.card_eq_fintype_card.symm.trans (natCard_bitVec 64))
  refine ⟨n % Function.minimalPeriod (lcgStep · inc) s, (Nat.mod_lt n hpos).trans_le hle, ?_⟩
  rw [stateAfter_eq_iterate, stateAfter_eq_iterate, Function.iterate_mod_minimalPeriod_eq]

/-- Draws that are all rejected for 2^64 in a row are rejected for ever. -/
theorem drawAt_lt_forever {inc s : U64} {thr : U32} (hr : ∀ j, j < samplerFuel → drawAt inc s j < thr) (n : Nat) :
    drawAt inc s n < thr := by
  obtain ⟨m, hm, hstate⟩ := exists_stateAfter_eq_lt inc s n
  rw [drawAt, ← hstate]
  exact hr m hm

/-! ### The endless loop in micro-steps -/

/-- The sampler in flight with every draw still to come below the threshold, phase by phase (R143 to R145). -/
inductive Rejecting (s : State) : Prop where
  | thr (hp : s.phase = .bndThr) (hbound : s.bound ≠ 0#32)
      (hr : ∀ n, drawAt s.increment s.state n < threshold s.bound)
  | draw (hp : s.phase = .bndDraw) (hr : ∀ n, drawAt s.increment s.state n < s.thrQ)
  | test (hp : s.phase = .bndTest) (hnow : s.rQ < s.thrQ) (hr : ∀ n, drawAt s.increment s.state n < s.thrQ)

theorem Rejecting.exists_busyStep {s : State} (h : Rejecting s) : ∃ u, BusyStep s u ∧ Rejecting u := by
  cases h with
  | thr hp hbound hr =>
    refine ⟨_, busyStep_bndThr hp, ?_⟩
    rw [microBndThr, if_neg hbound]
    exact .draw rfl hr
  | draw hp hr => exact ⟨_, busyStep_bndDraw hp, .test rfl (hr 0) fun n => hr (n + 1)⟩
  | test hp hnow hr =>
    refine ⟨_, busyStep_bndTest hp, ?_⟩
    rw [microBndTest, if_neg (BitVec.not_le.2 hnow)]
    exact .draw rfl hr

/-- A block that can always make a micro-step to a state of the same kind stays busy for ever. -/
theorem run_busy_forever {P : State → Prop} (hP : ∀ s, P s → ∃ u, BusyStep s u ∧ P u) (n : Nat) {s : State} (hs : P s)
    (ports : List Inputs) (hrst : ∀ p ∈ ports, p.rst = false) :
    ∃ u, Host.Core.run Sys2Proof.core n (s.driving ports) = .next u ∧ u.phase ≠ .idle ∧ u.phase ≠ .resp := by
  induction n generalizing s ports with
  | zero =>
    obtain ⟨_, ⟨hidle, hresp, _⟩, _⟩ := hP s hs
    exact ⟨_, rfl, hidle, hresp⟩
  | succ n ih =>
    obtain ⟨v, hbusy, hv⟩ := hP s hs
    have hstep : step (s.driving ports) = .next (v.driving ports.tail) :=
      step_of_busyStep (pins_rst_eq_false hrst) (hbusy.driving ports)
    rw [run_of_step n hstep]
    exact ih hv ports.tail fun p hp => hrst p (List.mem_of_mem_tail hp)

/-! ### The command that raises the fault -/

/-- Of the nine commands NEXT_BOUNDED alone can stop. -/
theorem nextBounded_of_effectOf_fault {i : Instr} {s : State} {r : Fault} (h : effectOf i s = .fault r) :
    ∃ high bound b, i = .nextBounded high bound b := by
  cases i with
  | nextBounded high bound b => exact ⟨high, bound, b, rfl⟩
  | _ => exact nomatch h

/-- Where exec stops, the command has passed dispatch and its effect on the latched state stops. -/
theorem effectOf_fault_of_exec {i : Instr} {s : State} {r : Fault} (h : exec i s = .fault r) :
    dispatchError i.opcode s = none ∧ effectOf i (s.latch i.opcode i.operandA i.operandB) = .fault r := by
  rcases exec_cases i s with ⟨_, e⟩ | ⟨_, _, _, e⟩ | ⟨_, hpass, e⟩
  · exact nomatch e.symm.trans h
  · exact nomatch e.symm.trans h
  · exact ⟨hpass, e.symm.trans h⟩

/-- The loop run whole stops only where the bound is not 0 and no draw is ever accepted. -/
theorem draws_rejected_of_runBounded_fault {s : State} {r : Fault} (h : runBounded s = .fault r) :
    s.bound ≠ 0#32 ∧ ∀ n, drawAt s.increment s.state n < threshold s.bound := by
  rcases runBounded_cases s with ⟨_, e⟩ | ⟨_, _, _, _, _, e⟩ | ⟨hbound, hr, _⟩
  · exact nomatch e.symm.trans h
  · exact nomatch e.symm.trans h
  · exact ⟨hbound, drawAt_lt_forever hr⟩

/-- The accept micro-step of a command whose exec stops enters the endless loop (R82). -/
theorem rejecting_microAccept {s : State} {i : Instr} {r : Fault} (hd : decode s.pins.word = .instr i)
    (h : exec i s = .fault r) : Rejecting (microAccept s) := by
  obtain ⟨hop, ha, hb⟩ := decodePorts_fields ((decode_word s.pins).symm.trans hd)
  obtain ⟨hpass, heffect⟩ := effectOf_fault_of_exec h
  obtain ⟨high, bound, b, rfl⟩ := nextBounded_of_effectOf_fault heffect
  obtain ⟨hbound, hr⟩ := draws_rejected_of_runBounded_fault heffect
  rw [microAccept_enters (hop ▸ hpass), hop, ha, hb]
  exact .thr rfl hbound hr

/-- Settles O45: 2^64 rejected draws leave no state to come whose draw is accepted, so the micro-steps of the sampler go
round for ever. -/
theorem endlessSamplerNeverAnswers : Obligations.EndlessSamplerNeverAnswers := by
  unfold Obligations.EndlessSamplerNeverAnswers
  intro s i hidle hpace hvalid hrst hd h n hpos
  obtain ⟨n, rfl⟩ := Nat.exists_eq_add_one.2 hpos
  have haccept : step s = .next ((microAccept s).driving s.inputs.tail) := by
    rw [step_accept_micro (pins_rst_eq_false hrst) hidle hvalid hpace, State.hostMoves, inputs_microAccept]
    rfl
  rw [run_of_step n haccept]
  exact run_busy_forever (fun _ => Rejecting.exists_busyStep) n (rejecting_microAccept hd h) s.inputs.tail fun p hp =>
    hrst p (List.mem_of_mem_tail hp)

end Sys2Proof.Machine
end

section
/-! PROOFS. The threshold as a number (R140, R146), and how the accepted draws fall on the residues (R150). -/

namespace Sys2Proof.Machine

/-! ### The threshold -/

theorem toNat_pos {b : U32} (hb : b ≠ 0#32) : 0 < b.toNat :=
  Nat.pos_of_ne_zero fun h => hb (BitVec.eq_of_toNat_eq h)

theorem toNat_neg32 {b : U32} (hb : b ≠ 0#32) : (neg32 b).toNat = 2 ^ 32 - b.toNat := by
  rw [BitVec.toNat_neg, Nat.mod_eq_of_lt (Nat.sub_lt (Nat.two_pow_pos 32) (toNat_pos hb))]

theorem toNat_threshold_neg {b : U32} (hb : b ≠ 0#32) : (threshold b).toNat = (2 ^ 32 - b.toNat) % b.toNat := by
  rw [threshold, BitVec.toNat_umod, toNat_neg32 hb]

/-- The threshold is the part of the 32-bit range that no multiple of the bound fills (R146 (a)). -/
theorem toNat_threshold {b : U32} (hb : b ≠ 0#32) : (threshold b).toNat = 2 ^ 32 % b.toNat := by
  rw [toNat_threshold_neg hb, ← Nat.mod_eq_sub_mod b.isLt.le]

theorem threshold_eq_zero_iff_dvd {b : U32} (hb : b ≠ 0#32) : threshold b = 0#32 ↔ b.toNat ∣ 2 ^ 32 := by
  rw [← BitVec.toNat_inj, toNat_threshold hb]
  exact (Nat.dvd_iff_mod_eq_zero ..).symm

/-- The divisors of 2^32 that fit 32 bits are its powers of two but for 2^32 itself (R146 (c)). -/
theorem threshold_eq_zero_iff {b : U32} (hb : b ≠ 0#32) : threshold b = 0#32 ↔ ∃ k, k < 32 ∧ b.toNat = 2 ^ k := by
  rw [threshold_eq_zero_iff_dvd hb, Nat.dvd_prime_pow Nat.prime_two]
  constructor
  · rintro ⟨k, _, hk⟩
    exact ⟨k, (Nat.pow_lt_pow_iff_right Nat.one_lt_two).1 (hk ▸ b.isLt), hk⟩
  · rintro ⟨k, hlt, hk⟩
    exact ⟨k, hlt.le, hk⟩

/-- The accepted values fill the bound a whole number of times (R146 (d)). -/
theorem threshold_add_multiple {b : U32} (hb : b ≠ 0#32) :
    (threshold b).toNat + 2 ^ 32 / b.toNat * b.toNat = 2 ^ 32 := by
  rw [toNat_threshold hb, Nat.mod_add_div']

/-- Settles O57: law by law, the threshold being 2^32 mod the bound. -/
theorem thresholdLaws : Obligations.ThresholdLaws := by
  unfold Obligations.ThresholdLaws
  intro b hb
  have haccepted : 2 ^ 32 - (threshold b).toNat = b.toNat * (2 ^ 32 / b.toNat) := by
    rw [Nat.mul_comm]
    exact Nat.sub_eq_of_eq_add' (threshold_add_multiple hb).symm
  have hlarge (h : 2 ^ 31 < b.toNat) : (threshold b).toNat = 2 ^ 32 - b.toNat := by
    rw [toNat_threshold_neg hb, Nat.mod_eq_of_lt (by omega)]
  refine ⟨toNat_neg32 hb, toNat_threshold_neg hb, toNat_threshold hb, ?_, threshold_eq_zero_iff hb, haccepted,
    fun h => ⟨hlarge h, ?_⟩⟩
  · rw [toNat_threshold hb]
    exact Nat.mod_lt _ (toNat_pos hb)
  · rw [hlarge h]
    omega

/-! ### The accepted draws by residue -/

/-- Having a given residue is periodic, so any stretch of `q` times the divisor has `q` members of each residue. -/
theorem card_residue_Ico {b : Nat} (hb : 0 < b) (start q v : Nat) :
    ((Finset.Ico start (start + q * b)).filter (· ≡ v [MOD b])).card = q := by
  have hperiod : Function.Periodic (· ≡ v [MOD b]) (q * b) := fun n => by simp [Nat.ModEq]
  rw [Nat.filter_Ico_card_eq_of_periodic _ _ _ hperiod, Nat.count_modEq_card _ hb]
  simp [hb]

/-- A set of numbers that fit a word has as many members as there are words in it. -/
theorem natCard_toNat_mem {w : Nat} {S : Finset Nat} (hS : ∀ n ∈ S, n < 2 ^ w) :
    Nat.card { r : BitVec w // r.toNat ∈ S } = S.card := by
  rw [Nat.card_eq_of_bijective (fun r => (⟨r.1.toNat, r.2⟩ : S)) ⟨fun r t h => ?_, fun n => ?_⟩,
    Nat.card_eq_fintype_card, Fintype.card_coe]
  · exact Subtype.ext (BitVec.eq_of_toNat_eq (Subtype.mk.inj h))
  · have hn : (BitVec.ofNat w n.1).toNat = n.1 := Nat.mod_eq_of_lt (hS n.1 n.2)
    exact ⟨⟨BitVec.ofNat w n.1, hn.symm ▸ n.2⟩, Subtype.ext hn⟩

/-- The numbers from the threshold up to 2^32, a whole number of times the bound, with a given residue (R146 (d)). -/
def acceptedWithResidue (b v : U32) : Finset Nat :=
  (Finset.Ico (threshold b).toNat ((threshold b).toNat + 2 ^ 32 / b.toNat * b.toNat)).filter
    (· ≡ v.toNat [MOD b.toNat])

theorem mem_acceptedWithResidue {b v : U32} (hb : b ≠ 0#32) (n : Nat) :
    n ∈ acceptedWithResidue b v ↔
      ((threshold b).toNat ≤ n ∧ n < 2 ^ 32) ∧ n % b.toNat = v.toNat % b.toNat := by
  rw [acceptedWithResidue, threshold_add_multiple hb, Finset.mem_filter, Finset.mem_Ico, Nat.ModEq]

theorem accepted_residue_iff {b v : U32} (hb : b ≠ 0#32) (hv : v < b) (r : U32) :
    (threshold b ≤ r ∧ r % b = v) ↔ r.toNat ∈ acceptedWithResidue b v := by
  rw [mem_acceptedWithResidue hb, Nat.mod_eq_of_lt hv, BitVec.le_def, ← BitVec.toNat_inj, BitVec.toNat_umod]
  exact and_congr_left' (iff_self_and.2 fun _ => r.isLt)

/-- Settles O58: the accepted draws are a stretch of the numbers as long as a multiple of the bound. -/
theorem acceptedResiduesAreEven : Obligations.AcceptedResiduesAreEven := by
  unfold Obligations.AcceptedResiduesAreEven
  intro b v hv
  have hb : b ≠ 0#32 := fun h => BitVec.not_lt_zero (h ▸ hv)
  have hfits (n : Nat) (hn : n ∈ acceptedWithResidue b v) : n < 2 ^ 32 := ((mem_acceptedWithResidue hb n).1 hn).1.2
  simp only [accepted_residue_iff hb hv]
  rw [natCard_toNat_mem hfits, acceptedWithResidue, card_residue_Ico (toNat_pos hb)]

end Sys2Proof.Machine
end

section
/-! PROOFS. NEXT_BOUNDED (R141 to R149): its three micro-steps, and the command run whole by the first draw it accepts. -/

namespace Sys2Proof.Machine

/-! ### The micro-steps -/

/-- Settles O42: each phase's micro-step, then the host's move, which reaches into both branches of a test. -/
theorem samplerMicroSteps : Obligations.SamplerMicroSteps := by
  unfold Obligations.SamplerMicroSteps
  intro s hrst
  have hstep {u : State} (h : BusyStep s u) : step s = .next u.hostMoves := step_of_busyStep hrst h
  refine ⟨fun hp => (hstep (busyStep_bndThr hp)).trans ?_, fun hp => hstep (busyStep_bndDraw hp),
    fun hp => (hstep (busyStep_bndTest hp)).trans ?_⟩
  · rw [microBndThr, apply_ite State.hostMoves]
    rfl
  · rw [microBndTest, apply_ite State.hostMoves]
    rfl

/-! ### The command run whole -/

/-- NEXT_BOUNDED passes the checks on a seeded block, whatever its options (R81). -/
theorem exec_nextBounded_seeded {s : State} (hidle : s.phase = .idle) (hseeded : s.seeded = true) (high bound : U32)
    (b : U64) : exec (.nextBounded high bound b) s = runBounded (s.latch 0x3#4 (high ++ bound) b) :=
  command_runs hidle (dispatchError_seeded (by simp [reserved]) hseeded)

/-- NEXT_BOUNDED's effect in terms of the stream of draws, the n-th of which is the first one accepted. -/
theorem runBounded_accepts {s : State} {bound : U32} {n : Nat} (hlow : s.bound = bound) (hbound : bound ≠ 0#32)
    (hn : n < samplerFuel) (hr : ∀ j, j < n → drawAt s.increment s.state j < threshold bound)
    (ha : threshold bound ≤ drawAt s.increment s.state n) :
    runBounded s = .next { s with
      thrQ := threshold bound, rQ := drawAt s.increment s.state n, state := stateAfter s.increment (n + 1) s.state,
      rspDataQ := zext64 (mod32 (drawAt s.increment s.state n) bound), rspErrQ := 0#2, phase := .resp } := by
  subst hlow
  exact (if_neg hbound).trans (sampler_accepts n hn s.keepThreshold hr ha)

/-- Settles O22: past dispatch the loop ends with the first accepted draw, the bound being the low half latched. -/
theorem nextBoundedAnswersFirstAcceptedDraw : Obligations.NextBoundedAnswersFirstAcceptedDraw := by
  unfold Obligations.NextBoundedAnswersFirstAcceptedDraw
  intro high bound b s n hidle hseeded hbound hn hr ha
  rw [exec_nextBounded_seeded hidle hseeded, runBounded_accepts (latch_bound s high bound b) hbound hn hr ha]
  rfl

/-- Under an odd increment some draw is the first one accepted (R148). -/
theorem exists_first_accepted_draw {inc : U64} (hodd : inc.getLsbD 0 = true) (s : U64) (thr : U32) :
    ∃ n, n < samplerFuel ∧ (∀ j, j < n → drawAt inc s j < thr) ∧ thr ≤ drawAt inc s n := by
  have h := exists_accepted_draw hodd s thr
  classical
  obtain ⟨hlt, haccept⟩ := Nat.find_spec h
  exact ⟨Nat.find h, hlt,
    fun j hj => BitVec.not_le.1 fun hle => Nat.find_min h hj ⟨hj.trans hlt, hle⟩, haccept⟩

/-- Settles O23: the first accepted draw exists, and O22 says what it answers. -/
theorem nextBoundedAlwaysAnswers : Obligations.NextBoundedAlwaysAnswers := by
  unfold Obligations.NextBoundedAlwaysAnswers
  intro high bound b s hidle hseeded hodd hbound
  obtain ⟨n, hn, hr, ha⟩ := exists_first_accepted_draw hodd s.state (threshold bound)
  exact ⟨n, _, nextBoundedAnswersFirstAcceptedDraw high bound b s n hidle hseeded hbound hn hr ha, rfl, hr, ha, rfl, rfl⟩

/-- A power of two that fits the bound, as a number. -/
theorem toNat_ofNat_two_pow {k : Nat} (hk : k < 32) : (BitVec.ofNat 32 (2 ^ k)).toNat = 2 ^ k :=
  Nat.mod_eq_of_lt (Nat.pow_lt_pow_right Nat.one_lt_two hk)

/-- Settles O24: the threshold is 0, so the first draw is accepted. -/
theorem powerOfTwoBoundTakesOneDraw : Obligations.PowerOfTwoBoundTakesOneDraw := by
  unfold Obligations.PowerOfTwoBoundTakesOneDraw
  intro high bound b s k hidle hseeded hk hpow
  have hnum : bound.toNat = 2 ^ k := hpow ▸ toNat_ofNat_two_pow hk
  have hbound : bound ≠ 0#32 := by
    rintro rfl
    exact (Nat.two_pow_pos k).ne hnum
  have hthr : threshold bound = 0#32 := (threshold_eq_zero_iff hbound).2 ⟨k, hk, hnum⟩
  have hexec := nextBoundedAnswersFirstAcceptedDraw high bound b s 0 hidle hseeded hbound (Nat.two_pow_pos 64)
    (fun j hj => absurd hj (Nat.not_lt_zero j)) (hthr ▸ BitVec.not_lt.1 BitVec.not_lt_zero)
  refine ⟨_, hexec, rfl, rfl, ?_⟩
  show ((xshRr s.state % bound).setWidth 64).toNat = _
  rw [BitVec.toNat_setWidth_of_le (by decide), BitVec.toNat_umod, hnum]

/-- A residue stays below its divisor when it is zero-extended. -/
theorem toNat_zext64_mod32_lt (r : U32) {b : U32} (hb : b ≠ 0#32) : (zext64 (mod32 r b)).toNat < b.toNat := by
  rw [BitVec.toNat_setWidth_of_le (by decide), BitVec.toNat_umod]
  exact Nat.mod_lt _ (toNat_pos hb)

theorem rspDataQ_lt_of_runBounded {s t : State} (h : runBounded s = .next t) (hok : t.rspErrQ = 0#2) :
    t.rspDataQ.toNat < s.bound.toNat := by
  rcases runBounded_cases s with ⟨_, e⟩ | ⟨hbound, n, _, _, _, e⟩ | ⟨_, _, e⟩
  · obtain rfl := Host.Outcome.next.inj (e.symm.trans h)
    exact absurd hok (errorCode_ne_zero .boundZero)
  · obtain rfl := Host.Outcome.next.inj (e.symm.trans h)
    exact toNat_zext64_mod32_lt _ hbound
  · exact nomatch e.symm.trans h

/-- Settles O25: a success past dispatch is the residue of a draw; an error at dispatch is none. -/
theorem boundedResultBelowBound : Obligations.BoundedResultBelowBound := by
  unfold Obligations.BoundedResultBelowBound
  intro high bound b s t hidle h hok
  rcases exec_cases (.nextBounded high bound b) s with ⟨hbusy, _⟩ | ⟨_, err, _, e⟩ | ⟨_, _, e⟩
  · exact absurd hidle hbusy
  · obtain rfl := Host.Outcome.next.inj (e.symm.trans h)
    exact absurd hok (errorCode_ne_zero err)
  · exact latch_bound s high bound b ▸ rspDataQ_lt_of_runBounded (e.symm.trans h) hok

end Sys2Proof.Machine
end

section
/-! PROOFS. The binary64 pattern of a scaled number (R160, R166): its two fields, the number it stands for, and that a
greater numerator has no smaller pattern. -/

namespace Sys2Proof.Machine

/-! ### The fields of a pattern -/

/-- The 53-bit significand of a pattern: the numerator with its leading 1 moved to bit 52 (R160). -/
def significand (n : Nat) : Nat := n * 2 ^ (52 - n.log2)

/-- The exponent field of the pattern of `n * 2^-k` (R160). -/
def biasedExponent (n k : Nat) : Nat := 1023 + n.log2 - k

section
variable {n k : Nat}

theorem log2_le_of_lt (h53 : n < 2 ^ 53) : n.log2 ≤ 52 := by
  rcases eq_or_ne n 0 with rfl | hn
  · simp
  · exact Nat.le_of_lt_succ ((Nat.log2_lt hn).2 h53)

theorem two_pow_mul_two_pow_log2 (h53 : n < 2 ^ 53) : 2 ^ n.log2 * 2 ^ (52 - n.log2) = 2 ^ 52 := by
  rw [← pow_add, Nat.add_sub_cancel' (log2_le_of_lt h53)]

/-- The significand has its leading 1 at bit 52. -/
theorem significand_mem (hn : n ≠ 0) (h53 : n < 2 ^ 53) : 2 ^ 52 ≤ significand n ∧ significand n < 2 ^ 53 := by
  have hscale := two_pow_mul_two_pow_log2 h53
  refine ⟨hscale ▸ Nat.mul_le_mul_right _ (Nat.log2_self_le hn), ?_⟩
  calc significand n < 2 ^ (n.log2 + 1) * 2 ^ (52 - n.log2) :=
        Nat.mul_lt_mul_of_pos_right Nat.lt_log2_self (Nat.two_pow_pos _)
    _ = 2 ^ 53 := by rw [pow_succ, Nat.mul_right_comm, hscale]; rfl

/-- The exponent field is that of a normal number. -/
theorem biasedExponent_mem (h53 : n < 2 ^ 53) (hk : k ≤ 1022) : 1 ≤ biasedExponent n k ∧ biasedExponent n k < 2 ^ 11 := by
  have hlog := log2_le_of_lt h53
  unfold biasedExponent
  omega

/-- The pattern of a numerator other than 0: no sign, the exponent field, the significand without its hidden bit. -/
theorem f64Scaled_of_ne_zero (hn : n ≠ 0) (h53 : n < 2 ^ 53) (k : Nat) :
    f64Scaled n k = 0#1 ++ BitVec.ofNat 11 (biasedExponent n k) ++ BitVec.ofNat 52 (significand n - 2 ^ 52) := by
  have hfraction : significand n - 2 ^ 52 = (n - 2 ^ n.log2) * 2 ^ (52 - n.log2) := by
    rw [Nat.sub_mul, two_pow_mul_two_pow_log2 h53, significand]
  rw [hfraction]
  exact if_neg hn

/-- The sign bit 0, an exponent field and a fraction field as one number. -/
theorem toNat_exponent_append_fraction {e f : Nat} (he : e < 2 ^ 11) (hf : f < 2 ^ 52) :
    (0#1 ++ BitVec.ofNat 11 e ++ BitVec.ofNat 52 f).toNat = e * 2 ^ 52 + f := by
  simp only [BitVec.toNat_append, BitVec.toNat_ofNat, Nat.mod_eq_of_lt he, Nat.mod_eq_of_lt hf, Nat.zero_mod,
    Nat.zero_shiftLeft, Nat.zero_or]
  rw [← Nat.shiftLeft_add_eq_or_of_lt hf, Nat.shiftLeft_eq]

/-- The pattern as a number. -/
theorem toNat_f64Scaled (hn : n ≠ 0) (h53 : n < 2 ^ 53) (hk : k ≤ 1022) :
    (f64Scaled n k).toNat = biasedExponent n k * 2 ^ 52 + (significand n - 2 ^ 52) := by
  obtain ⟨hlow, hhigh⟩ := significand_mem hn h53
  have hfraction : significand n - 2 ^ 52 < 2 ^ 52 := by omega
  exact (congrArg BitVec.toNat (f64Scaled_of_ne_zero hn h53 k)).trans
    (toNat_exponent_append_fraction (biasedExponent_mem h53 hk).2 hfraction)

/-! ### The number a pattern stands for -/

theorem f64Scaled_ne_zero (hn : n ≠ 0) (h53 : n < 2 ^ 53) (hk : k ≤ 1022) : f64Scaled n k ≠ 0#64 := by
  have hexp := biasedExponent_mem h53 hk
  intro hzero
  have hnat := toNat_f64Scaled hn h53 hk
  rw [hzero, BitVec.toNat_zero] at hnat
  omega

theorem f64Scaled_exponentField (hn : n ≠ 0) (h53 : n < 2 ^ 53) (hk : k ≤ 1022) :
    ((f64Scaled n k).extractLsb' 52 11).toNat = biasedExponent n k := by
  have hexp := biasedExponent_mem h53 hk
  have hsig := significand_mem hn h53
  rw [BitVec.extractLsb'_toNat, toNat_f64Scaled hn h53 hk, Nat.shiftRight_eq_div_pow]
  omega

theorem f64Scaled_fractionField (hn : n ≠ 0) (h53 : n < 2 ^ 53) (hk : k ≤ 1022) :
    ((f64Scaled n k).extractLsb' 0 52).toNat = significand n - 2 ^ 52 := by
  have hsig := significand_mem hn h53
  rw [BitVec.extractLsb'_toNat, toNat_f64Scaled hn h53 hk, Nat.shiftRight_zero]
  omega

/-- Significand times power of two is the scaled number: the shift of the leading 1 and the exponent cancel. -/
theorem significand_mul_two_zpow (h53 : n < 2 ^ 53) (hk : k ≤ 1022) :
    (significand n : ℚ) * 2 ^ ((biasedExponent n k : ℤ) - 1075) = n / 2 ^ k := by
  have hlog := log2_le_of_lt h53
  have hexp : ((52 - n.log2 : ℕ) : ℤ) + ((biasedExponent n k : ℤ) - 1075) = -(k : ℤ) := by
    unfold biasedExponent
    omega
  rw [significand, Nat.cast_mul, Nat.cast_pow, Nat.cast_ofNat, ← zpow_natCast, mul_assoc, ← zpow_add₀ two_ne_zero, hexp,
    zpow_neg, zpow_natCast, div_eq_mul_inv]

/-- Settles O59: a numerator of 0 has the pattern +0.0; every other one stands in the two fields. -/
theorem patternStandsForScaledNumber : Obligations.PatternStandsForScaledNumber := by
  unfold Obligations.PatternStandsForScaledNumber
  intro n k h53 hk
  rcases eq_or_ne n 0 with rfl | hn
  · simp [f64Scaled, f64Value]
  · have hsig := significand_mem hn h53
    rw [f64Value, if_neg (f64Scaled_ne_zero hn h53 hk), f64Scaled_exponentField hn h53 hk,
      f64Scaled_fractionField hn h53 hk, Nat.add_sub_cancel' hsig.1, significand_mul_two_zpow h53 hk]

/-! ### The order of the patterns -/

/-- A greater numerator has a greater exponent field, or the same one and no smaller significand. -/
theorem f64Scaled_mono {m : Nat} (hle : m ≤ n) (h53 : n < 2 ^ 53) (hk : k ≤ 1022) : f64Scaled m k ≤ f64Scaled n k := by
  rcases eq_or_ne m 0 with rfl | hm
  · exact BitVec.not_lt.1 BitVec.not_lt_zero
  have hn : n ≠ 0 := by omega
  have hm53 : m < 2 ^ 53 := by omega
  have hsigm := significand_mem hm hm53
  have hsign := significand_mem hn h53
  rw [BitVec.le_def, toNat_f64Scaled hm hm53 hk, toNat_f64Scaled hn h53 hk]
  have hlog : m.log2 ≤ n.log2 := by
    simpa only [Nat.log2_eq_log_two] using Nat.log_mono_right hle
  rcases hlog.eq_or_lt with heq | hlt
  · have hexp : biasedExponent m k = biasedExponent n k := by rw [biasedExponent, heq, biasedExponent]
    have hsig : significand m ≤ significand n := by
      rw [significand, significand, heq]
      exact Nat.mul_le_mul_right _ hle
    omega
  · have hexp : biasedExponent m k < biasedExponent n k := by
      unfold biasedExponent
      omega
    omega

end

end Sys2Proof.Machine
end

section
/-! PROOFS. NEXT_DOUBLE and NEXT_DOUBLE2 (R161 to R166): the two commands run whole, the draw micro-step, and the bound of
their answers. -/

namespace Sys2Proof.Machine

/-! ### The commands run whole -/

/-- A command whose option is present has its own effect on a seeded idle block (R81). -/
theorem exec_seeded (i : Instr) {s : State} (hidle : s.phase = .idle) (hseeded : s.seeded = true)
    (hwf : i.wellFormed s.params = true) : exec i s = effectOf i (s.latch i.opcode i.operandA i.operandB) :=
  (exec_eq i s).trans (command_runs hidle (dispatchError_wellFormed hwf (.inl hseeded)))

/-- Settles O26: NEXT_DOUBLE passes the checks on a seeded block with FPCONV and makes one draw. -/
theorem nextDoubleCompletes : Obligations.NextDoubleCompletes := by
  unfold Obligations.NextDoubleCompletes
  intro a b s hidle hseeded hfpconv
  exact exec_seeded (.nextDouble a b) hidle hseeded hfpconv

/-- Settles O27: NEXT_DOUBLE2 passes the checks and assembles the next draws of the stream, in 53 bits by its type. -/
theorem nextDouble2Completes : Obligations.NextDouble2Completes := by
  unfold Obligations.NextDouble2Completes
  intro a b s hidle hseeded hfpconv
  exact ⟨_, BitVec.isLt _, rfl, (exec_seeded (.nextDouble2 a b) hidle hseeded hfpconv).trans (runDouble2_eq _)⟩

/-- The default assembly fits 53 bits: 27 bits of the first draw above 26 bits of the second (R165). -/
theorem toNat_d2Assemble_customary (r1 r2 : U32) :
    (d2Assemble .customary [r1, r2]).toNat = r1.toNat / 2 ^ 5 * 2 ^ 26 + r2.toNat / 2 ^ 6 := by
  have h1 := r1.isLt
  have h2 := r2.isLt
  simp only [d2Assemble, List.getD_cons_zero, List.getD_cons_succ, BitVec.toNat_ofNat, BitVec.toNat_ushiftRight,
    Nat.shiftRight_eq_div_pow]
  omega

/-- Settles O28: O27 with the two draws named and the default assembly written out. -/
theorem nextDouble2UnderDefault : Obligations.NextDouble2UnderDefault := by
  unfold Obligations.NextDouble2UnderDefault
  intro a b s hidle hseeded hfpconv hdefault
  obtain ⟨n, _, hn, hexec⟩ := nextDouble2Completes a b s hidle hseeded hfpconv
  rw [hdefault] at hn hexec
  exact ⟨_, hexec, rfl, rfl, congrArg (f64Scaled · 53) (hn.trans (toNat_d2Assemble_customary ..))⟩

/-! ### The draw micro-step -/

/-- Settles O43: the micro-step of D2_DRAW, then the host's move, which reaches into both branches of the count. -/
theorem double2MicroStep : Obligations.Double2MicroStep := by
  unfold Obligations.Double2MicroStep
  intro s hrst hp
  rw [step_of_busyStep hrst (busyStep_d2Draw hp), microD2Draw, apply_ite State.hostMoves]
  rfl

/-! ### The bound of the answers -/

theorem largest_doubleOf : doubleOf 0xFFFFFFFF#32 = 0x3FEFFFFFFFE00000#64 := by decide

theorem largest_f64Scaled_53 : f64Scaled (2 ^ 53 - 1) 53 = 0x3FEFFFFFFFFFFFFF#64 := by decide

theorem doubleOf_le_largest (r : U32) : doubleOf r ≤ doubleOf 0xFFFFFFFF#32 :=
  f64Scaled_mono (by simpa using Nat.le_of_lt_succ r.isLt) (by decide) (by decide)

theorem f64Scaled_53_le_largest {n : Nat} (h53 : n < 2 ^ 53) : f64Scaled n 53 ≤ f64Scaled (2 ^ 53 - 1) 53 :=
  f64Scaled_mono (Nat.le_sub_one_of_lt h53) (by decide) (by decide)

theorem doubleOf_lt_one (r : U32) : doubleOf r < 0x3FF0000000000000#64 :=
  BitVec.lt_def.2 (Nat.lt_of_le_of_lt (BitVec.le_def.1 (doubleOf_le_largest r)) (by rw [largest_doubleOf]; decide))

theorem double2Of_lt_one (choice : D2Choice) (dq : List U32) : double2Of choice dq < 0x3FF0000000000000#64 :=
  BitVec.lt_def.2 (Nat.lt_of_le_of_lt (BitVec.le_def.1 (f64Scaled_53_le_largest (BitVec.isLt _)))
    (by rw [largest_f64Scaled_53]; decide))

/-- The two conversions' effects answer patterns below that of 1.0. -/
theorem rspDataQ_lt_one_of_effectOf {i : Instr} {s t : State} (hop : i.opcode = 0x4#4 ∨ i.opcode = 0x5#4)
    (h : effectOf i s = .next t) : t.rspDataQ < 0x3FF0000000000000#64 := by
  cases i with
  | nextDouble a b =>
    obtain rfl := Host.Outcome.next.inj h
    exact doubleOf_lt_one _
  | nextDouble2 a b =>
    obtain rfl := Host.Outcome.next.inj h
    exact double2Of_lt_one ..
  | _ => exact absurd hop (by simp [Instr.opcode])

/-- Settles O60: a success is past dispatch, where the pattern is bounded by the largest one; the order does the rest. -/
theorem doublesLieBelowOne : Obligations.DoublesLieBelowOne := by
  unfold Obligations.DoublesLieBelowOne
  refine ⟨fun i s t hidle hop h hok => ?_, doubleOf_le_largest, largest_doubleOf, fun _ => f64Scaled_53_le_largest,
    largest_f64Scaled_53⟩
  rcases exec_cases i s with ⟨hbusy, _⟩ | ⟨_, err, _, e⟩ | ⟨_, _, e⟩
  · exact absurd hidle hbusy
  · obtain rfl := Host.Outcome.next.inj (e.symm.trans h)
    exact absurd hok (errorCode_ne_zero err)
  · exact rspDataQ_lt_one_of_effectOf hop (e.symm.trans h)

end Sys2Proof.Machine
end

section
/-! PROOFS. RD_STATE, RD_INC and RESTORE (R180 to R182), and from them that a restored save goes on like the saved point
(R186). -/

namespace Sys2Proof.Machine

/-! ### The commands run whole -/

/-- Settles O29: RD_STATE passes the checks on a seeded block and answers `state`. -/
theorem rdStateCompletes : Obligations.RdStateCompletes := by
  unfold Obligations.RdStateCompletes
  intro a b s hidle hseeded
  exact exec_seeded (.rdState a b) hidle hseeded rfl

/-- Settles O30: RD_INC passes the checks on a seeded block and answers `increment`, whose bit 0 the invariant fixes. -/
theorem rdIncCompletes : Obligations.RdIncCompletes := by
  unfold Obligations.RdIncCompletes
  intro a b s hidle hseeded
  refine ⟨exec_seeded (.rdInc a b) hidle hseeded rfl, fun hinv => ?_⟩
  obtain ⟨hodd, _⟩ := hinv
  simpa [BitVec.getLsbD, Nat.testBit_zero] using hodd hseeded

/-- Settles O31: RESTORE passes the checks in every state and writes the two operands latched. -/
theorem restoreCompletes : Obligations.RestoreCompletes := by
  unfold Obligations.RestoreCompletes
  intro a b s hidle
  have hpass : dispatchError 0x8#4 s = none := dispatchError_free (by simp [reserved]) rfl
  exact (exec_restore s).trans (command_runs hidle hpass)

/-! ### Save and restore -/

/-- A command that an idle block accepts ends with a response on offer (R83, R191). -/
theorem phase_of_exec {i : Instr} {s t : State} (hidle : s.phase = .idle) (h : exec i s = .next t) :
    t.phase = .resp := by
  rcases answersFrom_of_exec hidle h with ⟨e, rfl⟩ | ⟨_, hresp, _⟩
  · rfl
  · exact hresp

@[simp] theorem Inputs.issued_word (p : Inputs) : p.issued.word = p.word := rfl

/-- What serving the command on the ports answers and leaves, read off the command's meaning (R57, R65, R84). -/
theorem eq_of_serve {p : Inputs} {i : Instr} {s t u : State} {x : Response} (h : serve p s = some (x, t))
    (hidle : s.phase = .idle) (hpace : s.pace = .command)
    (hfields : p.cmdOp = i.opcode ∧ p.cmdA = i.operandA ∧ p.cmdB = i.operandB)
    (hexec : exec i (s.driving [p.issued]) = .next u) :
    x = ⟨u.rspErrQ, u.rspDataQ⟩ ∧ t = u.hostMoves.take := by
  obtain ⟨hop, ha, hb⟩ := hfields
  have hresp : u.phase = .resp := phase_of_exec (s := s.driving [p.issued]) hidle hexec
  have hd : decode p.word = .instr i := by rw [decode_word, hop, ha, hb, decodePorts_of_fields]
  have haccept : acceptCommand exec (s.driving [p.issued]) = .next u := by
    rw [← hexec, acceptCommand, State.driving_pins, Inputs.issued_word, hd]
  rw [serve, step_issued p hidle hpace, haccept] at h
  simp only [thenHostMoves, State.hostMoves_response, State.response_of_resp hresp, Option.map_some, Option.some.injEq,
    Prod.mk.injEq] at h
  obtain ⟨rfl, rfl⟩ := h
  exact ⟨rfl, rfl⟩

/-- Forcing bit 0 leaves an odd increment as it is (R22, R182). -/
theorem or_one_of_odd {x : U64} (h : x.getLsbD 0 = true) : x ||| 1#64 = x := by
  ext i hi
  cases i with
  | zero => simpa using h
  | succ n => simp

/-- Settles O49: the two reads answer the saved pair and keep it, RESTORE writes it back with bit 0 already 1, and a
script is served alike on two blocks that agree on the pair, `seeded` and the parameters. -/
theorem restoreReproducesSavedPoint : Obligations.RestoreReproducesSavedPoint := by
  unfold Obligations.RestoreReproducesSavedPoint
  intro s s1 s2 t t1 p q r x y z hinv hidle hpace hseeded htidle htpace hparams hpop hp hqop hq hrop hra hrb hr script
  obtain ⟨rfl, hs1⟩ := eq_of_serve (i := .rdState p.cmdA p.cmdB) hp hidle hpace ⟨hpop, rfl, rfl⟩
    (rdStateCompletes _ _ (s.driving [p.issued]) hidle hseeded)
  have hread : Interchangeable s1 s := by
    rw [hs1]
    exact ⟨rfl, hidle, hpace, hpace, rfl, rfl, rfl, rfl⟩
  obtain ⟨_, hinc1, hseeded1, _⟩ := hread.stream
  obtain ⟨rfl, _⟩ := eq_of_serve (i := .rdInc q.cmdA q.cmdB) hq hread.idleLeft hread.paceLeft ⟨hqop, rfl, rfl⟩
    (rdIncCompletes _ _ (s1.driving [q.issued]) hread.idleLeft (hseeded1.trans hseeded)).1
  obtain ⟨_, ht1⟩ := eq_of_serve (i := .restore r.cmdA r.cmdB) hr htidle htpace ⟨hrop, rfl, rfl⟩
    (restoreCompletes _ _ (t.driving [r.issued]) htidle)
  obtain ⟨hodd, _⟩ := hinv
  have hinc : r.cmdB ||| 1#64 = s.increment := by
    rw [hrb.trans hinc1, or_one_of_odd (hodd hseeded)]
  have hrestored : Interchangeable t1 s := by
    rw [ht1]
    exact ⟨rfl, hidle, htpace, hpace, hra, hinc, hseeded.symm, hparams⟩
  refine map_eq_of_rel (runScript_interchangeable script hrestored) fun a b ⟨hresponses, hend⟩ => ?_
  obtain ⟨hstate, hincrement, _, _⟩ := hend.stream
  simp only [hresponses, hstate, hincrement]

end Sys2Proof.Machine
end

section
/-! PROOFS. No step stops under the invariant (R148, R196, R233): the micro-step of EXEC finds an opcode of its own, and
a command run whole is answered. -/

namespace Sys2Proof.Machine

/-- The invariant leaves EXEC no opcode without a micro-step (R82, R86). -/
theorem microExec_answers {s : State} (h : s.Inv) (hp : s.phase = .exec) : ∃ t, microExec s = .next t := by
  obtain ⟨_, hfits⟩ := inv_iff.1 h
  obtain ⟨hop, _⟩ := (phaseFits_exec hp).1 hfits
  unfold microExec
  rcases hop with hop | ⟨_, hop | hop | hop | hop⟩ <;> rw [hop] <;> exact ⟨_, rfl⟩

/-- Every other phase has its micro-step, whatever the latches hold. -/
theorem microStep_answers {s : State} (h : s.Inv) : ∃ t, microStep s = .next t := by
  cases hp : s.phase <;> simp only [microStep, hp]
  case exec => exact microExec_answers h hp
  all_goals exact ⟨_, rfl⟩

theorem acceptEdge_answers {s : State} (h : s.Inv) (hidle : s.phase = .idle) : ∃ t, acceptEdge exec s = .next t := by
  unfold acceptEdge
  cases s.pace with
  | command =>
    obtain ⟨t, ht, _⟩ := acceptCommand_answers h hidle
    exact ⟨t, ht⟩
  | micro => exact ⟨_, rfl⟩

theorem portEdge_answers {s : State} (h : s.Inv) : ∃ t, portEdge exec s = .next t := by
  rcases portEdge_cases s with ⟨_, e⟩ | ⟨_, _, _, e⟩ | ⟨_, hidle, _, e⟩ | ⟨_, _, e⟩ | ⟨_, _, _, e⟩ <;> rw [e]
  · exact ⟨_, rfl⟩
  · exact ⟨_, rfl⟩
  · exact acceptEdge_answers h hidle
  · exact ⟨_, rfl⟩
  · exact microStep_answers h

/-- Settles O47: the block's transition answers a next state, and so does the step, the host's move added. -/
theorem stepNeverStops : Obligations.StepNeverStops := by
  unfold Obligations.StepNeverStops
  intro s h
  obtain ⟨t, ht⟩ := portEdge_answers h
  exact ⟨_, step_next ht⟩

end Sys2Proof.Machine
end

section
/-! PROOFS. The errors (R190 to R196): which one a command is answered with, in their order, and that an erring command
writes the response, `fault_sticky` and `phase` beside the command latches. -/

namespace Sys2Proof.Machine

/-! ### What the checks and the latches read -/

theorem needsSeed_iff {op : U4} : needsSeed op = true ↔ 0x2#4 ≤ op ∧ op ≤ 0x7#4 := by
  simp [needsSeed]

/-- A command other than AUTOSEED is latched as it stands on the command port (R80). -/
theorem latch_of_ne_autoseed {op : U4} (hop : op ≠ 0x1#4) (a b : U64) (s : State) :
    s.latch op a b = { s with opQ := op, aQ := a, bQ := b } := by
  simp only [State.latch, operandLatchA, operandLatchB, if_neg hop]

theorem exec_error {i : Instr} {s : State} {e : Error} (hidle : s.phase = .idle)
    (herr : dispatchError i.opcode s = some e) :
    exec i s = .next ((s.latch i.opcode i.operandA i.operandB).raise e) :=
  (exec_eq i s).trans (command_error hidle herr)

/-! ### The three errors, each from the state before -/

/-- Settles O34: the option is present, so the check for Unseeded is the one that answers. -/
theorem unseededCommandIsAnswered : Obligations.UnseededCommandIsAnswered := by
  unfold Obligations.UnseededCommandIsAnswered
  intro i s hidle hunseeded hwf hlow hhigh
  have hres : reserved s.params i.opcode = false := by rw [reserved_opcode, hwf]; rfl
  have hop : i.opcode ≠ 0x1#4 := fun h => absurd (h ▸ hlow) (by decide)
  rw [exec_error hidle (dispatchError_unseeded hres (needsSeed_iff.2 ⟨hlow, hhigh⟩) hunseeded),
    latch_of_ne_autoseed hop]
  rfl

/-- Settles O35: NEXT_BOUNDED passes the checks on a seeded block, and the bound latched is the zero low half. -/
theorem zeroBoundIsAnswered : Obligations.ZeroBoundIsAnswered := by
  unfold Obligations.ZeroBoundIsAnswered
  intro high b s hidle hseeded
  rw [exec_nextBounded_seeded hidle hseeded, runBounded, if_pos (latch_bound s high 0#32 b),
    latch_of_ne_autoseed (by decide)]
  rfl

/-- A reserved opcode is answered alike in the two paces: run whole, by the opcode map or by the check for an absent
option; in micro-steps, by that check alone (R71, R81, R170). -/
theorem acceptEdge_reserved {s : State} (hidle : s.phase = .idle) (hres : reserved s.params s.pins.cmdOp = true) :
    acceptEdge exec s = .next ((s.latch s.pins.cmdOp s.pins.cmdA s.pins.cmdB).raise .illegalCommand) := by
  have hillegal := dispatchError_illegal hres
  unfold acceptEdge
  cases s.pace with
  | command =>
    show acceptCommand exec s = _
    rcases acceptCommand_cases s with ⟨i, hd, e⟩ | ⟨op, hd, e⟩ <;> rw [decode_word] at hd <;> rw [e]
    · obtain ⟨hop, ha, hb⟩ := decodePorts_fields hd
      rw [hop] at hillegal
      rw [exec_error hidle hillegal, hop, ha, hb]
    · rw [decodePorts_reserved hd]
  | micro => simp only [microAccept, hillegal]

/-- Settles O36: the opcode is reserved in the sense of the dispatch check, so the accept edge errs in either pace. -/
theorem reservedOpcodeIsAnswered : Obligations.ReservedOpcodeIsAnswered := by
  unfold Obligations.ReservedOpcodeIsAnswered
  intro s hrst hidle hvalid hop
  have hres : reserved s.params s.pins.cmdOp = true := by simpa [reserved] using hop
  have hne : s.pins.cmdOp ≠ 0x1#4 := fun h => absurd (h ▸ hop) (by simp)
  rw [step_next ((portEdge_accept hrst hidle hvalid).trans (acceptEdge_reserved hidle hres)),
    latch_of_ne_autoseed hne]
  rfl

/-! ### The order of the errors, and what an error writes -/

theorem rspErrQ_of_runBounded {s t : State} (h : runBounded s = .next t) :
    t.rspErrQ = if s.bound = 0#32 then 1#2 else 0#2 := by
  rcases runBounded_cases s with ⟨hzero, e⟩ | ⟨hbound, n, _, _, _, e⟩ | ⟨_, _, e⟩
  · obtain rfl := Host.Outcome.next.inj (e.symm.trans h)
    exact (if_pos hzero).symm
  · obtain rfl := Host.Outcome.next.inj (e.symm.trans h)
    exact (if_neg hbound).symm
  · exact nomatch e.symm.trans h

/-- Past dispatch a zero bound of NEXT_BOUNDED is the one error (R142, R193, R196). -/
theorem rspErrQ_of_effectOf {i : Instr} {s t : State} (h : effectOf i s = .next t) :
    t.rspErrQ = if i.opcode = 0x3#4 ∧ s.bound = 0#32 then 1#2 else 0#2 := by
  cases i with
  | nextBounded high bound b => simpa [Instr.opcode] using rspErrQ_of_runBounded h
  | nextDouble2 a b =>
    obtain rfl := Host.Outcome.next.inj h
    rfl
  | _ =>
    obtain ⟨_, _, _, _, rfl⟩ :=
      effectOf_next_respond_withPair h (by simp [Instr.opcode]) (by simp [Instr.opcode])
    rfl

section
variable {i : Instr} {s t : State} (hidle : s.phase = .idle) (h : exec i s = .next t)
include hidle h

theorem rspErrQ_of_exec_error {e : Error} (herr : dispatchError i.opcode s = some e) : t.rspErrQ = errorCode e := by
  obtain rfl := Host.Outcome.next.inj ((exec_error hidle herr).symm.trans h)
  rfl

theorem rspErrQ_of_exec_pass (hpass : dispatchError i.opcode s = none) :
    t.rspErrQ = if i.opcode = 0x3#4 ∧ i.operandA.setWidth 32 = 0#32 then 1#2 else 0#2 := by
  have hbound (h3 : i.opcode = 0x3#4) :
      (s.latch i.opcode i.operandA i.operandB).bound = i.operandA.setWidth 32 := by
    rw [h3, latch_of_ne_autoseed (by decide)]
    rfl
  have heffect := ((exec_eq i s).trans (command_runs hidle hpass)).symm.trans h
  rw [rspErrQ_of_effectOf heffect]
  exact if_congr (and_congr_right fun h3 => by rw [hbound h3]) rfl rfl

end

/-- Settles O37: a command errs at dispatch by the first check that applies; one that passes is NEXT_BOUNDED with a zero
bound or succeeds. -/
theorem errorsInPriorityOrder : Obligations.ErrorsInPriorityOrder := by
  unfold Obligations.ErrorsInPriorityOrder
  intro i s t hidle h
  have hres : reserved s.params i.opcode = !i.wellFormed s.params := reserved_opcode s.params i
  refine ⟨fun hwf => ?_, fun hwf hlow hhigh hunseeded => ?_, fun hwf hseeded => ?_, fun hwf hfree => ?_⟩ <;>
    rw [hwf] at hres
  · exact rspErrQ_of_exec_error hidle h (dispatchError_illegal hres)
  · exact rspErrQ_of_exec_error hidle h (dispatchError_unseeded hres (needsSeed_iff.2 ⟨hlow, hhigh⟩) hunseeded)
  · exact rspErrQ_of_exec_pass hidle h (dispatchError_seeded hres hseeded)
  · have hneeds : needsSeed i.opcode = false := Bool.eq_false_iff.2 fun hn => hfree (needsSeed_iff.1 hn)
    have h3 : i.opcode ≠ 0x3#4 := fun h3 => hfree (h3 ▸ by decide)
    rw [rspErrQ_of_exec_pass hidle h (dispatchError_free hres hneeds), if_neg fun hzero => h3 hzero.1]

/-- Settles O38: of the two answers of an accepted command only the error response has a code other than 0. -/
theorem errorsArePrecise : Obligations.ErrorsArePrecise := by
  unfold Obligations.ErrorsArePrecise
  intro i s t hidle h herr
  rcases answersFrom_of_exec hidle h with ⟨e, rfl⟩ | ⟨hok, _⟩
  · rfl
  · exact absurd hok herr

end Sys2Proof.Machine
end

section
/-! PROOFS. The reset edge (R220, R221): in any phase it leaves the block idle, with both status bits 0 and no response. -/

namespace Sys2Proof.Machine

/-- Outside RESP the host reads no response (R33, R65). -/
theorem State.response_of_ne_resp {s : State} (hp : s.phase ≠ .resp) : s.response = none :=
  if_neg fun h => hp (s.rspValid_iff.1 h)

theorem State.resetEdge_response (s : State) : s.resetEdge.response = none :=
  State.response_of_ne_resp (by simp)

theorem step_reset {s : State} (hrst : s.pins.rst = true) : step s = .next s.resetEdge.hostMoves :=
  step_next (portEdge_reset hrst)

/-- Settles O3: the step is the reset edge, whatever the phase, and then the host's move, which keeps every register. -/
theorem resetEdgeClearsStatus : Obligations.ResetEdgeClearsStatus := by
  unfold Obligations.ResetEdgeClearsStatus
  intro s hrst
  have hresponse : s.resetEdge.hostMoves.response = none := s.resetEdge.hostMoves_response.trans s.resetEdge_response
  exact ⟨_, step_reset hrst, s.resetEdge_phase, s.resetEdge_seeded, s.resetEdge_faultSticky, hresponse,
    s.resetEdge_params, congrArg List.tail s.resetEdge_inputs⟩

end Sys2Proof.Machine
end
